-- ==== Sys2Proof/Word.lean ====
section
/-!
DEFINITION. The word types of the machine and the closed sets of names that instructions and the board use: registers,
register pairs, conditions, operations, modules. Plain enumerations with no behaviour beyond a four-slot table.
-/

namespace Sys2Proof

/-- An 8-bit value: registers, memory bytes, port bytes (R8, R9). -/
abbrev Byte := BitVec 8

/-- A 16-bit value: pairs, IX, IY, SP, PC, memory and port addresses (R8, R9). -/
abbrev Word := BitVec 16

/-- The 8-bit registers an `r8` field can name; the memory operand (field value 6) is a form of its own (R126). -/
inductive Reg8 where
  | b | c | d | e | h | l | a
  deriving DecidableEq, Repr

/-- The `rp` pairs BC, DE, HL, SP (R126). -/
inductive Rp where
  | bc | de | hl | sp
  deriving DecidableEq, Repr

/-- The `rp2` pairs BC, DE, HL, AF of PUSH and POP (R126). -/
inductive Rp2 where
  | bc | de | hl | af
  deriving DecidableEq, Repr

/-- The pairs of ADD IX,pp and ADD IY,pp: BC, DE, the index register itself, SP (R303). -/
inductive Xp where
  | bc | de | xy | sp
  deriving DecidableEq, Repr

/-- The index register a DD or FD prefix selects (R124). -/
inductive IdxReg where
  | ix | iy
  deriving DecidableEq, Repr

/-- A half of an index register: `hi` is xyH, `lo` is xyL (R124, R240). -/
inductive Half where
  | hi | lo
  deriving DecidableEq, Repr

/-- The operands of LD p,p': B, C, D, E, xyH, xyL, A (R168). -/
inductive HReg where
  | b | c | d | e | xh | xl | a
  deriving DecidableEq, Repr

/-- The eight conditions of field cc (R42). -/
inductive Cond where
  | nz | z | nc | c | po | pe | p | m
  deriving DecidableEq, Repr

/-- The four conditions JR cc can take (R374). -/
inductive JrCond where
  | nz | z | nc | c
  deriving DecidableEq, Repr

/-- The `alu` operations in field order (R126, R240). -/
inductive AluOp where
  | add | adc | sub | sbc | and | xor | or | cp
  deriving DecidableEq, Repr

/-- The `rot` operations in field order (R126, R321). -/
inductive RotOp where
  | rlc | rrc | rl | rr | sla | sra | sll | srl
  deriving DecidableEq, Repr

/-- The interrupt modes (R38). -/
inductive IntMode where
  | im0 | im1 | im2
  deriving DecidableEq, Repr

/-- The four module slots of the board (R11). -/
inductive ModuleId where
  | m0 | m1 | m2 | m3
  deriving DecidableEq, Repr

/-- One value per module slot (R11, R62). -/
structure Quad (α : Type) where
  m0 : α
  m1 : α
  m2 : α
  m3 : α
  deriving DecidableEq, Repr

namespace Quad

/-- The entry of one module. -/
def get {α : Type} (q : Quad α) : ModuleId → α
  | .m0 => q.m0
  | .m1 => q.m1
  | .m2 => q.m2
  | .m3 => q.m3

/-- The table with one module's entry replaced. -/
def set {α : Type} (q : Quad α) (m : ModuleId) (v : α) : Quad α :=
  match m with
  | .m0 => { q with m0 := v }
  | .m1 => { q with m1 := v }
  | .m2 => { q with m2 := v }
  | .m3 => { q with m3 := v }

/-- The same value for every module. -/
def all {α : Type} (v : α) : Quad α := ⟨v, v, v, v⟩

/-- Every entry changed by a function that may look at the module's number. -/
def mapId {α : Type} (f : ModuleId → α → α) (q : Quad α) : Quad α :=
  ⟨f .m0 q.m0, f .m1 q.m1, f .m2 q.m2, f .m3 q.m3⟩

end Quad

end Sys2Proof
end

