-- ==== Sys2Proof/Machine/Bits.lean ====
section
/-!
DEFINITION. Bit fields, byte order and sign extension (R12, R13, R84, R123): the one place where a word is taken apart
or put together.
-/

namespace Sys2Proof

/-- Bits 15..8 of a word (R12). -/
def hiByte (w : Word) : Byte := w.extractLsb' 8 8

/-- Bits 7..0 of a word (R12). -/
def loByte (w : Word) : Byte := w.extractLsb' 0 8

/-- The word with high byte `h` and low byte `l` (R12, R84). -/
def pair (h l : Byte) : Word := h ++ l

/-- `sext_16` (R13): an 8-bit displacement as a signed 16-bit value. -/
def sext16 (e : Byte) : Word := e.signExtend 16

/-- The effective address `trunc16(base + sext_16(d))` (R88). -/
def indexed (base : Word) (d : Byte) : Word := base + sext16 d

/-- Opcode field x = b[7:6] (R123). -/
def fieldX (b : Byte) : BitVec 2 := b.extractLsb' 6 2

/-- Opcode field y = b[5:3] (R123). -/
def fieldY (b : Byte) : BitVec 3 := b.extractLsb' 3 3

/-- Opcode field z = b[2:0] (R123). -/
def fieldZ (b : Byte) : BitVec 3 := b.extractLsb' 0 3

/-- Opcode field p = b[5:4] (R123). -/
def fieldP (b : Byte) : BitVec 2 := b.extractLsb' 4 2

/-- Opcode field q = b[3] (R123). -/
def fieldQ (b : Byte) : Bool := b.getLsbD 3

/-- An opcode byte from its fields x, y, z (R123). -/
def opXYZ (x : BitVec 2) (y z : BitVec 3) : Byte := x ++ y ++ z

/-- An opcode byte from its fields x, p, q, z (R123). -/
def opXPQZ (x p : BitVec 2) (q : Bool) (z : BitVec 3) : Byte := x ++ p ++ BitVec.ofBool q ++ z

end Sys2Proof
end

