-- ==== Sys2Proof/Config.lean ====
section
/-!
DEFINITION. What an implementation fixes (the named parameters of R10, as one record of plain data that the state
carries and no step changes) and the free values the spec leaves open (R19), as opaque constants with no body.
-/

namespace Sys2Proof

/-- `P_BOARD_MODE` (R10, R450). -/
inductive BoardMode where
  | classic | zxpoly
  deriving DecidableEq, Repr

/-- `P_MACHINE_MAP` (R10, R92, R95). `flatBus` is the flat 64 KB bus of the core vectors of 95_test_vectors.md
(Conventions, Memory): every address is RAM and no port is a bank-select port. DESIGN CHOICE, log entry 6. -/
inductive MachineMap where
  | spectrum128 | spectrum48 | flatBus
  deriving DecidableEq, Repr

/-- `P_RESET_VALUES` (R10, D2). -/
inductive ResetValues where
  | zero | silicon
  deriving DecidableEq, Repr

/-- `P_INTACK_BUS` (R10, R83, D11): one byte, or a fresh free value at each acknowledge. -/
inductive IntAckSource where
  | fixed (v : Byte)
  | draw
  deriving DecidableEq, Repr

/-- `P_SCF_CCF_XY` (R10, R282). -/
inductive ScfCcfXy where
  | a | aOrF | zilogQ
  deriving DecidableEq, Repr

/-- `P_BLOCK_REPEAT_XY` (R10, D8). -/
inductive BlockRepeatXy where
  | classic | pcHigh
  deriving DecidableEq, Repr

/-- `P_FRAME_WRAP` (R10, R454). -/
inductive FrameWrap where
  | carry | zero
  deriving DecidableEq, Repr

/-- `P_INT_SOURCE` (R10, R473, R474). -/
inductive IntSource where
  | tstate | wallclock
  deriving DecidableEq, Repr

/-- A named part of a module, for `P_TRDOS_HOOK`, which is a function of the module's state (R10, R60). -/
inductive HookField where
  | a | f | b | c | d | e | h | l | a' | f' | b' | c' | d' | e' | h' | l'
  | ix | iy | sp | pc | i | r | iff1 | iff2 | im | halted | memptr | q
  | eiDelay | prefixBlock | nmiPending | nmiPrev | ldair | retiSeen | port7FFD | trdos | t
  deriving DecidableEq, Repr

/-- A bit a hook looks at: of the fetch address or of a part of the module, or whether the module is number `m`. -/
inductive HookBit where
  | address (k : Fin 16)
  | index (m : ModuleId)
  | part (field : HookField) (k : Nat)
  deriving DecidableEq, Repr

/-- A function of (module state, fetch address) to the TR-DOS flag as plain data: a decision over bits. Every function of
a list of those bits is one (`HookTree.ofBits_value`). -/
inductive HookTree where
  | flag (on : Bool)
  | keep
  | test (bit : HookBit) (ifSet ifClear : HookTree)
  deriving DecidableEq, Repr

/-- `P_TRDOS_HOOK` (R10, R98, D37). `identity` is the default (the flag never changes); `given` is the hook a board has;
`free`, the open hook of D37, lets the flag take a free value at every opcode fetch, which admits every hook function. -/
inductive TrdosHook where
  | identity
  | given (tree : HookTree)
  | free
  deriving DecidableEq, Repr

/-- Direction of a port access, for `P_IO_FILTER` (R10, R484, R485). -/
inductive PortDir where
  | read | write
  deriving DecidableEq, Repr

/-- A set of port accesses of one module: the ports whose bits under `mask` equal `value`. A list of them is a
predicate over (module, port, direction) written as plain data; every such predicate has such a list. -/
structure PortPattern where
  module : ModuleId
  dir : PortDir
  mask : Word
  value : Word
  deriving DecidableEq, Repr

/-- The record of R470. -/
structure TimingProfile where
  tstatesPerLine : Nat
  linesPerFrame : Nat
  intStart : Nat
  intLength : Nat
  firstPaperLine : Nat
  paperLines : Nat
  deriving DecidableEq, Repr

/-- `PROFILE_48` (R470). -/
def profile48 : TimingProfile := ⟨224, 312, 0, 32, 64, 192⟩

/-- `PROFILE_128`, the default (R470). -/
def profile128 : TimingProfile := ⟨228, 311, 0, 36, 63, 192⟩

/-- `PROFILE_PENTAGON` (R470). -/
def profilePentagon : TimingProfile := ⟨224, 320, 0, 32, 80, 192⟩

/-- The notification flags of a device as the bitmask of R481: PRESTEP = 1, POSTSTEP = 2. -/
abbrev NotificationFlags := BitVec 2

/-- A device of the registry outside the block (R486): the AY pair, whose flags R481 gives, the disk interface, or another,
whose flags the configuration gives (R65). -/
inductive ExternalDevice where
  | ayPair
  | disk (flags : NotificationFlags)
  | other (flags : NotificationFlags)
  deriving DecidableEq, Repr

/-- The notification flags of an external device: the AY pair has POSTSTEP (R481). -/
def ExternalDevice.flags : ExternalDevice → NotificationFlags
  | .ayPair => 2
  | .disk g => g
  | .other g => g

/-- The named parameters of R10 (R65). `heapBanks` is how many banks the heap holds (R63) and `heapMap` is `P_HEAP_MAP`, which a
board is constructed with only if it names existing banks (R96, `Config.heapMapFits`). `ioBlocked` lists the accesses
`P_IO_FILTER` turns away. `kempstonZxpoly` lists the reads `P_KEMPSTON_DECODE_ZXPOLY` accepts. `externals` is the external
devices of the registry in their order (R480, R486). `P_CONTENTION` has one value and `P_NMI_SOURCE`, `tape_in`, `reset_req`
and the input events are host inputs, held in the state. -/
structure Config where
  boardMode : BoardMode
  machineMap : MachineMap
  heapBanks : Nat
  heapMap : Quad (Vector Nat 8)
  resetValues : ResetValues
  intAck : IntAckSource
  openBus : Byte
  scfCcfXy : ScfCcfXy
  blockRepeatXy : BlockRepeatXy
  outCZero : Byte
  ldairIffBug : Bool
  timing : TimingProfile
  frameWrap : FrameWrap
  intSource : IntSource
  borderOffset : Int
  ioBlocked : List PortPattern
  trdosHook : TrdosHook
  kempstonZxpoly : List PortPattern
  externals : List ExternalDevice
  deriving DecidableEq, Repr

/-- The default heap map `8*module + page` (R10, D24). -/
def defaultHeapMap : Quad (Vector Nat 8) :=
  ⟨#v[0, 1, 2, 3, 4, 5, 6, 7], #v[8, 9, 10, 11, 12, 13, 14, 15],
   #v[16, 17, 18, 19, 20, 21, 22, 23], #v[24, 25, 26, 27, 28, 29, 30, 31]⟩

/-- The check of R96: `P_HEAP_MAP` maps every (module, page) pair to an existing bank. -/
def Config.heapMapFits (g : Config) : Bool :=
  let fits (m : ModuleId) : Bool := (g.heapMap.get m).toList.all fun bank => decide (bank < g.heapBanks)
  fits .m0 && fits .m1 && fits .m2 && fits .m3

/-- The default column of R10, with the 32 banks of R63 and the external devices R486 names (log entry 5). -/
def Config.default : Config where
  boardMode := .classic
  machineMap := .spectrum128
  heapBanks := 32
  heapMap := defaultHeapMap
  resetValues := .zero
  intAck := .fixed 0xFF
  openBus := 0xFF
  scfCcfXy := .a
  blockRepeatXy := .classic
  outCZero := 0x00
  ldairIffBug := true
  timing := profile128
  frameWrap := .carry
  intSource := .tstate
  borderOffset := 0
  ioBlocked := []
  trdosHook := .identity
  kempstonZxpoly :=
    [⟨.m0, .read, 0x00FF, 0x001F⟩, ⟨.m1, .read, 0x00FF, 0x001F⟩,
     ⟨.m2, .read, 0x00FF, 0x001F⟩, ⟨.m3, .read, 0x00FF, 0x001F⟩]
  externals := [.ayPair, .disk 0]

/-- The byte of heap RAM at a physical address before anything has written it: a draw at power-on (R63, U13, log entry 1). -/
opaque Config.powerOnByte : Nat → Byte

/-- The byte of a ROM image at a physical address where the loader has put none (R505, log entry 1). -/
opaque Config.unloadedByte : Nat → Byte

/-- The free byte of draw number `n` (R19): nothing constrains it (log entry 3). -/
opaque Config.freeByte : Nat → Byte

/-- The answer of an external device to the port read of draw number `n`: a byte, or none for -1 (R486, log entry 3). -/
opaque Config.freeAnswer : Nat → Option Byte

/-- The free bit of draw number `n` (the TR-DOS flag under an open hook, log entry 3). -/
opaque Config.freeBit : Nat → Bool

end Sys2Proof
end

