-- ==== Sys2Proof/Machine/Memory.lean ====
section
/-!
DEFINITION. A byte store as plain data in one canonical form: (address, byte) cells with strictly rising addresses. An
unlisted address has no value in the store, so no cell equals what an unlisted address reads as.
-/

namespace Sys2Proof.Machine

/-- A byte store over physical addresses (R62: the heap RAM banks, the ROM images): the bytes written so far. -/
abbrev Mem := List Host.Cell

/-- The byte at address `a`, none where nothing has been written. -/
def Mem.read : Mem → Nat → Option Byte
  | [], _ => none
  | (k, v) :: m, a => if a = k then some v else Mem.read m a

/-- The store with the byte at `a` replaced by `v`. -/
def Mem.write : Mem → Nat → Byte → Mem
  | [], a, v => [(a, v)]
  | (k, w) :: m, a, v =>
    if a < k then (a, v) :: (k, w) :: m
    else if a = k then (k, v) :: m
    else (k, w) :: Mem.write m a v

/-- The cells have strictly rising addresses from `lo` on. -/
def Mem.wfFrom : Nat → Mem → Bool
  | _, [] => true
  | lo, (k, _) :: m => decide (lo ≤ k) && Mem.wfFrom (k + 1) m

/-- The canonical form. -/
def Mem.wf (m : Mem) : Bool := Mem.wfFrom 0 m

/-- Every cell lies below `lim`. -/
def Mem.below (lim : Nat) (m : Mem) : Bool := m.all fun c => decide (c.1 < lim)

end Sys2Proof.Machine
end

