-- ==== Sys2Proof/Machine/State.lean ====
section
/-!
DEFINITION. The state of the board as plain data: four module slots with their cores, the shared heap RAM, the ROM images,
the board's counters and lines, the modelled devices, and the host's inputs (10_state.md); the reasons a step can stop;
and the state right after reset.
-/

namespace Sys2Proof.Machine

/-- Why the machine stops with an error. -/
inductive Fault where
  /-- R18, U3: bytes with no instruction. Raised by `coreStep` when the decoder answers none; it never does, because the
  decoder is total on the bytes a fetch gives it (R7), so no run raises it. Safe. -/
  | unimplementedOpcode
  deriving DecidableEq, Repr

/-- Why the model gives no result. -/
inductive Refusal where
  /-- An instruction with no meaning in the model, by its mnemonic. Raised by `exec`'s refused arms only (there are none). Safe. -/
  | notModelled (mnemonic : String)
  /-- R441: an IM 0 acknowledge whose bus byte is not an RST opcode. Raised by `acceptInt`. Safe. -/
  | im0NotRst
  /-- A DD/FD delay form around something that is no unaffected unprefixed instruction, or a lone prefix inside another:
  no bytes decode to it. Raised by `execDdFd` and `runPlain` on terms that are not well formed. Safe. -/
  | notAnInstruction
  /-- R479: `readVideo` outside 0x0000-0x1AFF. Raised by the observer `readVideo`, by no step. Safe. -/
  | videoOffset
  /-- R106: `readVideo` elsewhere than at a frame's completion. Raised by the observer `readVideo`, by no step. Safe. -/
  | midFrame
  /-- R96: a configuration whose `P_HEAP_MAP` names a bank the heap does not have. Raised by `construct`, by no step. Safe. -/
  | heapMap
  deriving DecidableEq, Repr

/-- One ZxPolyModule (R60): its core's registers (R31 to R38, R46), the core's hidden state (R49 to R56), the bank-select
latch, the TR-DOS flag and the local T-state counter. The shadow registers A' to L' are `a'` to `l'`. -/
structure Module where
  a : Byte
  f : Byte
  b : Byte
  c : Byte
  d : Byte
  e : Byte
  h : Byte
  l : Byte
  a' : Byte
  f' : Byte
  b' : Byte
  c' : Byte
  d' : Byte
  e' : Byte
  h' : Byte
  l' : Byte
  ix : Word
  iy : Word
  sp : Word
  pc : Word
  i : Byte
  r : Byte
  iff1 : Bool
  iff2 : Bool
  im : IntMode
  halted : Bool
  memptr : Word
  q : Byte
  eiDelay : Bool
  prefixBlock : Bool
  nmiPending : Bool
  nmiPrev : Bool
  ldair : Bool
  retiSeen : Bool
  port7FFD : Byte
  trdos : Bool
  t : Nat
  deriving DecidableEq, Repr

/-- An event the host delivers between board steps (R491, R474, R438, R476, R489, R56): keys by half-row and bit, joystick
lines by bit, a wall-clock tick, the levels of the NMI line and of the tape input, a reset request, and the test harness
clearing a module's RETI-detection flag. -/
inductive HostEvent where
  | keyDown (row : Fin 8) (key : Fin 5)
  | keyUp (row : Fin 8) (key : Fin 5)
  | joyDown (line : Fin 5)
  | joyUp (line : Fin 5)
  | wallTick
  | nmiLevel (level : Bool)
  | tapeLevel (level : Bool)
  | resetRequest
  | clearReti (m : ModuleId)
  deriving DecidableEq, Repr

/-- The 8 half-rows of 5 keys, 0 = pressed (R64, R489). -/
abbrev KeyMatrix := Vector (BitVec 5) 8

/-- The board (R62, R64). `cur` and `draws` are the model's own: the module whose core step is under way, and the number
of free values taken so far. `hostInputs` is what the host will deliver before each coming board step, next step first. -/
structure State where
  cfg : Config
  mods : Quad Module
  cur : ModuleId
  heap : Mem
  rom : Mem
  frameNo : Nat
  nmiLine : Bool
  resetReq : Bool
  wallInt : Quad Bool
  frameStartPending : Bool
  resetSeen : Bool
  borderCur : BitVec 3
  borderLine : List (BitVec 3)
  keysLive : KeyMatrix
  keysVisible : KeyMatrix
  joyLive : Byte
  joyVisible : Byte
  tapeIn : Bool
  hostInputs : List (List HostEvent)
  draws : Nat
  deriving DecidableEq, Repr

/-- How every meaning answers. -/
abbrev Result := Host.Outcome State Fault Refusal

/-- A module after reset under `P_RESET_VALUES = ZERO` (R66). -/
def Module.zero : Module where
  a := 0
  f := 0
  b := 0
  c := 0
  d := 0
  e := 0
  h := 0
  l := 0
  a' := 0
  f' := 0
  b' := 0
  c' := 0
  d' := 0
  e' := 0
  h' := 0
  l' := 0
  ix := 0
  iy := 0
  sp := 0
  pc := 0
  i := 0
  r := 0
  iff1 := false
  iff2 := false
  im := .im0
  halted := false
  memptr := 0
  q := 0
  eiDelay := false
  prefixBlock := false
  nmiPending := false
  nmiPrev := false
  ldair := false
  retiSeen := false
  port7FFD := 0
  trdos := false
  t := 0

/-- Every key released (R64). -/
def KeyMatrix.released : KeyMatrix := Vector.replicate 8 0x1F

/-- The board right after power-on reset with the default parameters (R66, R500). -/
def State.reset : State where
  cfg := Config.default
  mods := Quad.all Module.zero
  cur := .m0
  heap := []
  rom := []
  frameNo := 0
  nmiLine := false
  resetReq := false
  wallInt := Quad.all false
  frameStartPending := true
  resetSeen := true
  borderCur := 0
  borderLine := List.replicate 311 0
  keysLive := KeyMatrix.released
  keysVisible := KeyMatrix.released
  joyLive := 0
  joyVisible := 0
  tapeIn := false
  hostInputs := []
  draws := 0

end Sys2Proof.Machine
end

