-- ==== Sys2Proof/Machine/Ops.lean ====
section
/-!
DEFINITION. The named operations over modules, memory, the stack and free values, the end-of-step bookkeeping, and the one
operation that enters a handler with the one that leaves it.
-/

namespace Sys2Proof.Machine

/-! ### The module whose core is stepping -/

/-- The module whose core step is under way (R457: a core reaches no other module). -/
def State.core (s : State) : Module := s.mods.get s.cur

/-- The state with that module replaced. -/
def State.setCore (s : State) (c : Module) : State := { s with mods := s.mods.set s.cur c }

/-- The state with that module changed by `f`. -/
def State.mapCore (s : State) (f : Module → Module) : State := s.setCore (f s.core)

/-- BC = B:C (R12, R31). -/
def Module.bc (c : Module) : Word := pair c.b c.c

/-- DE = D:E (R12, R31). -/
def Module.de (c : Module) : Word := pair c.d c.e

/-- HL = H:L (R12, R31). -/
def Module.hl (c : Module) : Word := pair c.h c.l

/-- AF = A:F (R12, R31). -/
def Module.af (c : Module) : Word := pair c.a c.f

/-- A write to BC writes both halves (R14). -/
def Module.setBc (c : Module) (v : Word) : Module := { c with b := hiByte v, c := loByte v }

/-- A write to DE writes both halves (R14). -/
def Module.setDe (c : Module) (v : Word) : Module := { c with d := hiByte v, e := loByte v }

/-- A write to HL writes both halves (R14). -/
def Module.setHl (c : Module) (v : Word) : Module := { c with h := hiByte v, l := loByte v }

/-- A write to AF writes both halves (R14). -/
def Module.setAf (c : Module) (v : Word) : Module := { c with a := hiByte v, f := loByte v }

/-! ### Memory (R80 to R99) -/

/-- What backs a 16 KB slot: a ROM image or a heap RAM bank (R91). -/
inductive Backing where
  | rom (image : Fin 3)
  | ram (bank : Nat)
  deriving DecidableEq, Repr

/-- `slot(a) = a[15:14]` (R91). -/
def slot (a : Word) : BitVec 2 := a.extractLsb' 14 2

/-- `a[13:0]` (R91). -/
def slotOffset (a : Word) : Nat := (a.extractLsb' 0 14).toNat

/-- The heap bank of a module's logical RAM page (R97, `P_HEAP_MAP`). -/
def heapBank (g : Config) (m : ModuleId) (page : Fin 8) : Nat := (g.heapMap.get m)[page]

/-- The RAM page at 0xC000, bits 2..0 of the latch (R93). -/
def latchPage (latch : Byte) : Fin 8 := (latch.extractLsb' 0 3).toFin

/-- ROM image 0 is the 128K editor, 1 is 48K BASIC, 2 is TR-DOS; the overlay flag goes before the latch (R92, R98). -/
def romImage128 (c : Module) : Fin 3 := if c.trdos then 2 else if c.port7FFD.getLsbD 4 then 1 else 0

/-- Under `SPECTRUM48` slot 0 is 48K BASIC, image 1 in R92's numbering (D22 calls it "ROM 0": log entry 23), or TR-DOS while the
overlay flag is set (R95, R98, R501, log entry 9). -/
def romImage48 (c : Module) : Fin 3 := if c.trdos then 2 else 1

/-- The logical map of a module (R91, R92, R95; `flatBus` by log entry 6). -/
def backing (g : Config) (m : ModuleId) (c : Module) (a : Word) : Backing :=
  match g.machineMap with
  | .spectrum128 =>
    if slot a = 0 then .rom (romImage128 c)
    else if slot a = 1 then .ram (heapBank g m 5)
    else if slot a = 2 then .ram (heapBank g m 2)
    else .ram (heapBank g m (latchPage c.port7FFD))
  | .spectrum48 =>
    if slot a = 0 then .rom (romImage48 c)
    else if slot a = 1 then .ram (heapBank g m 5)
    else if slot a = 2 then .ram (heapBank g m 2)
    else .ram (heapBank g m 0)
  | .flatBus =>
    if slot a = 0 then .ram (heapBank g m 0)
    else if slot a = 1 then .ram (heapBank g m 1)
    else if slot a = 2 then .ram (heapBank g m 2)
    else .ram (heapBank g m 3)

/-- The physical address of offset `off` of bank or image `k`: each is 16 KB. -/
def physical (k off : Nat) : Nat := k * 0x4000 + off

/-- The backing of an address for the stepping module. -/
def State.backing (s : State) (a : Word) : Backing := Machine.backing s.cfg s.cur s.core a

/-- The byte of the heap at a physical address: the last one written, or the draw of power-on (R63, R100). -/
def State.heapByte (s : State) (k : Nat) : Byte := (s.heap.read k).getD (Config.powerOnByte k)

/-- The byte of the ROM images at a physical address: the one loaded, or a free one (R505, log entry 1). -/
def State.romByte (s : State) (k : Nat) : Byte := (s.rom.read k).getD (Config.unloadedByte k)

/-- The byte behind a backing (R91). -/
def State.readBacking (s : State) (k : Backing) (off : Nat) : Byte :=
  match k with
  | .rom i => s.romByte (physical i.val off)
  | .ram b => s.heapByte (physical b off)

/-- `MemRead(a, 1)` (R15, R91). -/
def State.readByte (s : State) (a : Word) : Byte := s.readBacking (s.backing a) (slotOffset a)

/-- `MemWrite(a, 1, v)`: a ROM slot ignores it (R15, R91, R99). -/
def State.writeByte (s : State) (a : Word) (v : Byte) : State :=
  match s.backing a with
  | .rom _ => s
  | .ram b => { s with heap := s.heap.write (physical b (slotOffset a)) v }

/-- `MemRead(a, 2)`: low byte first, the address wraps (R15, R84). -/
def State.readWord (s : State) (a : Word) : Word := pair (s.readByte (a + 1)) (s.readByte a)

/-- `MemWrite(a, 2, v)`: low byte first, the address wraps (R15, R84). -/
def State.writeWord (s : State) (a : Word) (v : Word) : State :=
  (s.writeByte a (loByte v)).writeByte (a + 1) (hiByte v)

/-! ### The stack (R17) -/

/-- `Push(v)`: high byte at SP-1, then low byte at SP-2 (R17). -/
def State.push (s : State) (v : Word) : State :=
  let s1 := s.mapCore fun c => { c with sp := c.sp - 1 }
  let s2 := s1.writeByte s1.core.sp (hiByte v)
  let s3 := s2.mapCore fun c => { c with sp := c.sp - 1 }
  s3.writeByte s3.core.sp (loByte v)

/-- The value `Pop()` returns (R17). -/
def State.popValue (s : State) : Word := s.readWord s.core.sp

/-- What `Pop()` leaves: SP + 2 (R17). -/
def State.popped (s : State) : State := s.mapCore fun c => { c with sp := c.sp + 2 }

/-! ### Refresh and the end of a step -/

/-- One M1 cycle's effect on R: the low 7 bits count, bit 7 stays (R16, R46). -/
def refresh (r : Byte) : Byte := (r &&& 0x80) ||| ((r + 1) &&& 0x7F)

/-- `n` M1 cycles' effect on R (R46). -/
def refreshN : Nat → Byte → Byte
  | 0, r => r
  | n + 1, r => refreshN n (refresh r)

/-- The bookkeeping every step ends with (R430), less the cases that set a bit: `q` is what Q becomes. -/
def Module.endStep (c : Module) (q : Byte) : Module :=
  { c with eiDelay := false, prefixBlock := false, ldair := false, q := q }

/-- A step that took `n` T-states (R430, R451). -/
def Module.spend (c : Module) (n : Nat) : Module := { c with t := c.t + n }

/-- The end of an instruction that writes no flag by formula or constant: Q <- 0 (R430, R51). -/
def State.done (s : State) (n : Nat) (c : Module) : Result := .next (s.setCore ((c.spend n).endStep 0))

/-- The end of an instruction that writes a flag by formula or constant: Q <- F (R430, R51). -/
def State.doneFlags (s : State) (n : Nat) (c : Module) : Result := .next (s.setCore ((c.spend n).endStep c.f))

/-! ### Free values (R19) -/

/-- The next free byte. -/
def State.freeByte (s : State) : Byte := Config.freeByte s.draws

/-- The state after taking `n` free values. -/
def State.drew (s : State) (n : Nat) : State := { s with draws := s.draws + n }

/-! ### Entering and leaving a handler -/

/-- Taking an interrupt, the one entry NMI and INT share (R436, R439): the core leaves HALT and runs one M1 cycle;
`prepare` changes the flip-flops (and F.PV) as the kind of interrupt says; PC, the address of the next instruction that
would have run, is pushed; then PC goes to the handler's address, read from the state after the push (IM 2 reads it
from memory), MEMPTR takes it, and the step of `n` T-states ends with Q <- 0. -/
def State.takeInterrupt (s : State) (prepare : Module → Module) (target : State → Word) (n : Nat) : State :=
  let pushed := (s.mapCore fun c => prepare { c with halted := false, r := refresh c.r }).push s.core.pc
  pushed.mapCore fun c => (({ c with pc := target pushed, memptr := target pushed }).spend n).endStep 0

/-- The return from a handler (R384, R385, R444): PC and MEMPTR from the stack, IFF1 <- IFF2. -/
def State.leaveHandler (s : State) : State :=
  s.popped.mapCore fun c => { c with pc := s.popValue, memptr := s.popValue, iff1 := c.iff2 }

end Sys2Proof.Machine
end

