-- ==== Sys2Proof/Machine/Board.lean ====
section
/-!
DEFINITION. The board around the cores: host inputs, reset, the frame, NMI edge detection, module selection, the INT level, and
what follows a module step (60_exceptions.md parts 2 to 4, 70_reset_and_hazards.md).
-/

namespace Sys2Proof.Machine

/-- The module is active (R450). -/
def isActive (g : Config) (m : ModuleId) : Bool :=
  match g.boardMode with
  | .classic => m == .m0
  | .zxpoly => true

/-! ### Host inputs (R474, R476, R489 to R491) -/

/-- Half-row `row` with one key's bit at `up` (R491: pressed is 0). -/
def setKey (rows : KeyMatrix) (row : Fin 8) (key : Fin 5) (up : Bool) : KeyMatrix :=
  let bit : BitVec 5 := 1#5 <<< key.val
  rows.set row.val (if up then rows[row] ||| bit else rows[row] &&& ~~~bit) row.isLt

/-- The joystick byte with one line's bit at `on` (R490, R491). -/
def setLine (joy : Byte) (line : Fin 5) (on : Bool) : Byte :=
  let bit : Byte := 1#8 <<< line.val
  if on then joy ||| bit else joy &&& ~~~bit

/-- One host event (R491, R474, R438, R476, R56). -/
def State.deliver (s : State) (e : HostEvent) : State :=
  match e with
  | .keyDown row key => { s with keysLive := setKey s.keysLive row key false }
  | .keyUp row key => { s with keysLive := setKey s.keysLive row key true }
  | .joyDown line => { s with joyLive := setLine s.joyLive line true }
  | .joyUp line => { s with joyLive := setLine s.joyLive line false }
  | .wallTick => { s with wallInt := s.wallInt.mapId fun m w => isActive s.cfg m || w }
  | .nmiLevel level => { s with nmiLine := level }
  | .tapeLevel level => { s with tapeIn := level }
  | .resetRequest => { s with resetReq := true }
  | .clearReti m => { s with mods := s.mods.set m { s.mods.get m with retiSeen := false } }

/-- The events the host delivers before this board step, in their order (log entry 7). -/
def State.takeInputs (s : State) : State :=
  match s.hostInputs with
  | [] => s
  | batch :: later => batch.foldl State.deliver { s with hostInputs := later }

/-! ### Reset (R500 to R504) -/

/-- A module after reset under `P_RESET_VALUES = SILICON`, its free values numbered from `k` (R66, R504). -/
def Module.silicon (k : Nat) : Module :=
  { Module.zero with
    a := Config.freeByte k
    f := Config.freeByte (k + 1)
    b := Config.freeByte (k + 2)
    c := Config.freeByte (k + 3)
    d := Config.freeByte (k + 4)
    e := Config.freeByte (k + 5)
    h := Config.freeByte (k + 6)
    l := Config.freeByte (k + 7)
    a' := Config.freeByte (k + 8)
    f' := Config.freeByte (k + 9)
    b' := Config.freeByte (k + 10)
    c' := Config.freeByte (k + 11)
    d' := Config.freeByte (k + 12)
    e' := Config.freeByte (k + 13)
    h' := Config.freeByte (k + 14)
    l' := Config.freeByte (k + 15)
    ix := pair (Config.freeByte (k + 16)) (Config.freeByte (k + 17))
    iy := pair (Config.freeByte (k + 18)) (Config.freeByte (k + 19))
    sp := pair (Config.freeByte (k + 20)) (Config.freeByte (k + 21))
    memptr := pair (Config.freeByte (k + 22)) (Config.freeByte (k + 23)) }

/-- The four module slots after reset, active or not (R500, R66). -/
def resetModules (g : Config) (k : Nat) : Quad Module :=
  match g.resetValues with
  | .zero => Quad.all Module.zero
  | .silicon => ⟨Module.silicon k, Module.silicon (k + 24), Module.silicon (k + 48), Module.silicon (k + 72)⟩

/-- How many free values a reset takes. -/
def resetDraws (g : Config) : Nat :=
  match g.resetValues with
  | .zero => 0
  | .silicon => 96

/-- `board_reset()` (R500), with the lines low (R62, log entry 15): it keeps the heap RAM, the ROM images, `frame_no` and the
configuration, and costs no T-states. -/
def State.boardReset (s : State) : State :=
  { s with
    mods := resetModules s.cfg s.draws
    draws := s.draws + resetDraws s.cfg
    cur := .m0
    nmiLine := false
    resetReq := false
    wallInt := Quad.all false
    frameStartPending := true
    resetSeen := true
    borderCur := 0
    borderLine := List.replicate s.cfg.timing.linesPerFrame 0
    keysLive := KeyMatrix.released
    keysVisible := KeyMatrix.released
    joyLive := 0
    joyVisible := 0 }

/-- The construction of a board with the configuration `g`, at power-on: refused where `P_HEAP_MAP` names a bank that does not
exist (R96, R62, R65, R505). -/
def construct (g : Config) : Except Refusal State :=
  if g.heapMapFits then .ok ({ State.reset with cfg := g }).boardReset else .error .heapMap

/-! ### Before a module step (R451) -/

/-- The first board step of a frame: the keyboard and joystick snapshot, and the border of every line (R451, R478, R488). -/
def State.startFrame (s : State) : State :=
  if s.frameStartPending then
    { s with
      keysVisible := s.keysLive
      joyVisible := s.joyLive
      borderLine := List.replicate s.cfg.timing.linesPerFrame s.borderCur
      frameStartPending := false }
  else s

/-- One module's NMI edge detector (R438). -/
def Module.seeNmi (c : Module) (line : Bool) : Module :=
  { c with nmiPending := c.nmiPending || (line && !c.nmiPrev), nmiPrev := line }

/-- NMI edge detection for every active module (R438, R450). -/
def State.detectNmi (s : State) : State :=
  { s with mods := s.mods.mapId fun m c => if isActive s.cfg m then c.seeNmi s.nmiLine else c }

/-- The one of two modules with the smaller counter, the first when they are equal. -/
def earlier (mods : Quad Module) (best m : ModuleId) : ModuleId :=
  if (mods.get m).t < (mods.get best).t then m else best

/-- `select()` (R452). -/
def State.select (s : State) : ModuleId :=
  match s.cfg.boardMode with
  | .classic => .m0
  | .zxpoly => earlier s.mods (earlier s.mods (earlier s.mods .m0 .m1) .m2) .m3

/-- `TSTATES_PER_FRAME` (R470). -/
def tstatesPerFrame (p : TimingProfile) : Nat := p.tstatesPerLine * p.linesPerFrame

/-- The INT level of a module (R473, R474). -/
def State.intLevel (s : State) (m : ModuleId) : Bool :=
  match s.cfg.intSource with
  | .tstate =>
    decide (s.cfg.timing.intStart ≤ (s.mods.get m).t) &&
      decide ((s.mods.get m).t < s.cfg.timing.intStart + s.cfg.timing.intLength)
  | .wallclock => s.wallInt.get m

/-- The board step up to the module step: the frame's start, the NMI edges, the selection (R451). -/
def State.opened (s : State) : State :=
  let s1 := s.startFrame.detectNmi
  { s1 with cur := s1.select, resetSeen := false }

/-! ### After a module step (R451, R454) -/

/-- What a frame's end makes of a counter (R454, `P_FRAME_WRAP`). -/
def wrapCounter (g : Config) (t : Nat) : Nat :=
  match g.frameWrap with
  | .carry => t - tstatesPerFrame g.timing
  | .zero => 0

/-- Every active module has reached the frame's end (R454). -/
def State.frameDone (s : State) : Bool :=
  let past (m : ModuleId) : Bool := !isActive s.cfg m || decide (tstatesPerFrame s.cfg.timing ≤ (s.mods.get m).t)
  past .m0 && past .m1 && past .m2 && past .m3

/-- `frame_complete()` (R454). -/
def State.completeFrame (s : State) : State :=
  { s with
    mods := s.mods.mapId fun m c => if isActive s.cfg m then { c with t := wrapCounter s.cfg c.t } else c
    frameNo := s.frameNo + 1
    frameStartPending := true }

/-- The wall-clock request of the module that stepped is cleared (R451, R474). -/
def State.clearWall (s : State) : State :=
  match s.cfg.intSource with
  | .tstate => s
  | .wallclock => { s with wallInt := s.wallInt.set s.cur false }

/-- The end of a board step (R451). -/
def State.closed (s : State) : State :=
  if s.clearWall.frameDone then s.clearWall.completeFrame else s.clearWall

end Sys2Proof.Machine
end

