-- ==== Sys2Proof/Machine/Flags.lean ====
section
/-!
DEFINITION. The flag byte F and every flag computation of files 40 to 49, on bytes and words alone.
-/

namespace Sys2Proof.Machine

/-! ### The flag byte (R40) -/

/-- F.S, bit 7. -/
def flagS (f : Byte) : Bool := f.getLsbD 7

/-- F.Z, bit 6. -/
def flagZ (f : Byte) : Bool := f.getLsbD 6

/-- F.Y (F5), bit 5. -/
def flagY (f : Byte) : Bool := f.getLsbD 5

/-- F.H, bit 4. -/
def flagH (f : Byte) : Bool := f.getLsbD 4

/-- F.X (F3), bit 3. -/
def flagX (f : Byte) : Bool := f.getLsbD 3

/-- F.PV, bit 2. -/
def flagP (f : Byte) : Bool := f.getLsbD 2

/-- F.N, bit 1. -/
def flagN (f : Byte) : Bool := f.getLsbD 1

/-- F.C, bit 0. -/
def flagC (f : Byte) : Bool := f.getLsbD 0

/-- The flag byte with the given bits, in the order S Z Y H X PV N C (R40). -/
def packFlags (sf zf yf hf xf pf nf cf : Bool) : Byte :=
  BitVec.ofBool sf ++ BitVec.ofBool zf ++ BitVec.ofBool yf ++ BitVec.ofBool hf ++
    BitVec.ofBool xf ++ BitVec.ofBool pf ++ BitVec.ofBool nf ++ BitVec.ofBool cf

/-- Condition cc on F (R42). -/
def holds (cc : Cond) (f : Byte) : Bool :=
  match cc with
  | .nz => !flagZ f
  | .z => flagZ f
  | .nc => !flagC f
  | .c => flagC f
  | .po => !flagP f
  | .pe => flagP f
  | .p => !flagS f
  | .m => flagS f

/-- The condition of JR cc (R374). -/
def JrCond.cond : JrCond → Cond
  | .nz => .nz
  | .z => .z
  | .nc => .nc
  | .c => .c

/-- `parity(v)`: true when the number of one bits is even (R13). -/
def parity (v : Byte) : Bool :=
  !(v.getLsbD 0 ^^ v.getLsbD 1 ^^ v.getLsbD 2 ^^ v.getLsbD 3 ^^
    v.getLsbD 4 ^^ v.getLsbD 5 ^^ v.getLsbD 6 ^^ v.getLsbD 7)

/-! ### 8-bit arithmetic and logic (R241, R242) -/

/-- The adder `a + v + cin` (R241). -/
def addResult (a v : Byte) (cin : Bool) : Byte := a + v + BitVec.zeroExtend 8 (BitVec.ofBool cin)

/-- The adder's flags (R241). -/
def addFlags (a v : Byte) (cin : Bool) : Byte :=
  let r := addResult a v cin
  packFlags (r.getLsbD 7) (r == 0) (r.getLsbD 5)
    (decide (a.toNat % 16 + v.toNat % 16 + cin.toNat > 0x0F)) (r.getLsbD 3)
    (a.getLsbD 7 == v.getLsbD 7 && r.getLsbD 7 != a.getLsbD 7) false
    (decide (a.toNat + v.toNat + cin.toNat > 0xFF))

/-- The subtractor `a - v - cin` (R241). -/
def subResult (a v : Byte) (cin : Bool) : Byte := a - v - BitVec.zeroExtend 8 (BitVec.ofBool cin)

/-- The subtractor's flags with Y and X taken from `xy` (R241; R250 takes them from the operand). -/
def subFlagsXY (a v : Byte) (cin : Bool) (xy : Byte) : Byte :=
  let r := subResult a v cin
  packFlags (r.getLsbD 7) (r == 0) (xy.getLsbD 5)
    (decide (a.toNat % 16 < v.toNat % 16 + cin.toNat)) (xy.getLsbD 3)
    (a.getLsbD 7 != v.getLsbD 7 && r.getLsbD 7 != a.getLsbD 7) true
    (decide (a.toNat < v.toNat + cin.toNat))

/-- The subtractor's flags (R241). -/
def subFlags (a v : Byte) (cin : Bool) : Byte := subFlagsXY a v cin (subResult a v cin)

/-- The logic flags of a result (R242). -/
def logicFlags (r : Byte) (hf : Bool) : Byte :=
  packFlags (r.getLsbD 7) (r == 0) (r.getLsbD 5) hf (r.getLsbD 3) (parity r) false false

/-- What A becomes under an accumulator operation (R243 to R250). -/
def aluResult (op : AluOp) (a v f : Byte) : Byte :=
  match op with
  | .add => addResult a v false
  | .adc => addResult a v (flagC f)
  | .sub => subResult a v false
  | .sbc => subResult a v (flagC f)
  | .and => a &&& v
  | .xor => a ^^^ v
  | .or => a ||| v
  | .cp => a

/-- What F becomes under an accumulator operation (R243 to R250). -/
def aluFlags (op : AluOp) (a v f : Byte) : Byte :=
  match op with
  | .add => addFlags a v false
  | .adc => addFlags a v (flagC f)
  | .sub => subFlags a v false
  | .sbc => subFlags a v (flagC f)
  | .and => logicFlags (a &&& v) true
  | .xor => logicFlags (a ^^^ v) false
  | .or => logicFlags (a ||| v) false
  | .cp => subFlagsXY a v false v

/-- F after an 8-bit increment of `v`; C stays (R251). -/
def incFlags (v f : Byte) : Byte :=
  let r := v + 1
  packFlags (r.getLsbD 7) (r == 0) (r.getLsbD 5) (v &&& 0x0F == 0x0F) (r.getLsbD 3) (v == 0x7F) false (flagC f)

/-- F after an 8-bit decrement of `v`; C stays (R254). -/
def decFlags (v f : Byte) : Byte :=
  let r := v - 1
  packFlags (r.getLsbD 7) (r == 0) (r.getLsbD 5) (v &&& 0x0F == 0) (r.getLsbD 3) (v == 0x80) true (flagC f)

/-! ### General-purpose arithmetic (file 44) -/

/-- The correction DAA adds or subtracts (R270). -/
def daaCorrection (a f : Byte) : Byte :=
  (if a &&& 0x0F > 9 || flagH f then 0x06 else 0) ||| (if a > 0x99 || flagC f then 0x60 else 0)

/-- A after DAA (R270). -/
def daaResult (a f : Byte) : Byte := if flagN f then a - daaCorrection a f else a + daaCorrection a f

/-- F after DAA (R270). -/
def daaFlags (a f : Byte) : Byte :=
  let r := daaResult a f
  packFlags (r.getLsbD 7) (r == 0) (r.getLsbD 5)
    (if flagN f then flagH f && decide (a &&& 0x0F < 6) else decide (a &&& 0x0F > 9))
    (r.getLsbD 3) (parity r) (flagN f) (decide (a > 0x99) || flagC f)

/-- F after CPL, whose result is `r` (R271). -/
def cplFlags (r f : Byte) : Byte :=
  packFlags (flagS f) (flagZ f) (r.getLsbD 5) true (r.getLsbD 3) (flagP f) true (flagC f)

/-- F after CCF, with Y and X from `xy` (R273, R282). -/
def ccfFlags (xy f : Byte) : Byte :=
  packFlags (flagS f) (flagZ f) (xy.getLsbD 5) (flagC f) (xy.getLsbD 3) (flagP f) false (!flagC f)

/-- F after SCF, with Y and X from `xy` (R274, R282). -/
def scfFlags (xy f : Byte) : Byte :=
  packFlags (flagS f) (flagZ f) (xy.getLsbD 5) false (xy.getLsbD 3) (flagP f) false true

/-- F after LD A,I and LD A,R; C stays (R164, R165). -/
def ldAirFlags (v f : Byte) (iff2 : Bool) : Byte :=
  packFlags (v.getLsbD 7) (v == 0) (v.getLsbD 5) false (v.getLsbD 3) iff2 false (flagC f)

/-- F after IN r,(C), RLD and RRD: S Z Y X and parity of `v`, H = N = 0, C stays (R325, R401). -/
def inFlags (v f : Byte) : Byte :=
  packFlags (v.getLsbD 7) (v == 0) (v.getLsbD 5) false (v.getLsbD 3) (parity v) false (flagC f)

/-! ### 16-bit arithmetic (file 45) -/

/-- The word of a carry bit. -/
def carryWord (c : Bool) : Word := BitVec.zeroExtend 16 (BitVec.ofBool c)

/-- F after ADD HL,ss; S, Z and P/V stay (R300). -/
def add16Flags (a b : Word) (f : Byte) : Byte :=
  let r := a + b
  packFlags (flagS f) (flagZ f) (r.getLsbD 13)
    (decide (a.toNat % 0x1000 + b.toNat % 0x1000 > 0x0FFF)) (r.getLsbD 11) (flagP f) false
    (decide (a.toNat + b.toNat > 0xFFFF))

/-- F after ADC HL,ss (R301). -/
def adc16Flags (a b : Word) (cin : Bool) : Byte :=
  let r := a + b + carryWord cin
  packFlags (r.getLsbD 15) (r == 0) (r.getLsbD 13)
    (decide (a.toNat % 0x1000 + b.toNat % 0x1000 + cin.toNat > 0x0FFF)) (r.getLsbD 11)
    (a.getLsbD 15 == b.getLsbD 15 && r.getLsbD 15 != a.getLsbD 15) false
    (decide (a.toNat + b.toNat + cin.toNat > 0xFFFF))

/-- F after SBC HL,ss (R302). -/
def sbc16Flags (a b : Word) (cin : Bool) : Byte :=
  let r := a - b - carryWord cin
  packFlags (r.getLsbD 15) (r == 0) (r.getLsbD 13)
    (decide (a.toNat % 0x1000 < b.toNat % 0x1000 + cin.toNat)) (r.getLsbD 11)
    (a.getLsbD 15 != b.getLsbD 15 && r.getLsbD 15 != a.getLsbD 15) true
    (decide (a.toNat < b.toNat + cin.toNat))

/-! ### Rotates and shifts (file 46) -/

/-- Bit 7 of a value as the low bit of a byte. -/
def bit7ToBit0 (v : Byte) : Byte := v >>> 7

/-- Bit 0 of a value as the high bit of a byte. -/
def bit0ToBit7 (v : Byte) : Byte := v <<< 7

/-- The result of `rot[y]` with carry in `c` (R321). -/
def rotResult (op : RotOp) (v : Byte) (c : Bool) : Byte :=
  match op with
  | .rlc => (v <<< 1) ||| bit7ToBit0 v
  | .rrc => (v >>> 1) ||| bit0ToBit7 v
  | .rl => (v <<< 1) ||| (if c then 0x01 else 0)
  | .rr => (v >>> 1) ||| (if c then 0x80 else 0)
  | .sla => v <<< 1
  | .sra => (v >>> 1) ||| (v &&& 0x80)
  | .sll => (v <<< 1) ||| 0x01
  | .srl => v >>> 1

/-- The carry out of `rot[y]` (R321). -/
def rotCarry (op : RotOp) (v : Byte) : Bool :=
  match op with
  | .rlc | .rl | .sla | .sll => v.getLsbD 7
  | .rrc | .rr | .sra | .srl => v.getLsbD 0

/-- F after a CB rotate or shift (R321). -/
def rotFlags (op : RotOp) (v : Byte) (c : Bool) : Byte :=
  let r := rotResult op v c
  packFlags (r.getLsbD 7) (r == 0) (r.getLsbD 5) false (r.getLsbD 3) (parity r) false (rotCarry op v)

/-- F after RLCA, RRCA, RLA and RRA; S, Z and P/V stay (R320). -/
def rotAFlags (op : RotOp) (v f : Byte) : Byte :=
  let r := rotResult op v (flagC f)
  packFlags (flagS f) (flagZ f) (r.getLsbD 5) false (r.getLsbD 3) (flagP f) false (rotCarry op v)

/-! ### Bits (file 47) -/

/-- The byte with only bit `b` set (R353). -/
def bitMask (b : BitVec 3) : Byte := 1#8 <<< b.toNat

/-- F after BIT b of `v`, with Y and X from `xy` (R350, R351, R352). -/
def bitFlags (b : BitVec 3) (v xy f : Byte) : Byte :=
  let t := v.getLsbD b.toNat
  packFlags (b == 7 && t) (!t) (xy.getLsbD 5) true (xy.getLsbD 3) (!t) false (flagC f)

/-! ### Block instructions (files 42 and 49) -/

/-- F after LDI and LDD: `n = v + A` gives X and Y, `more` is BC != 0 (R215). -/
def blockLdFlags (v a f : Byte) (more : Bool) : Byte :=
  let n := v + a
  packFlags (flagS f) (flagZ f) (n.getLsbD 1) false (n.getLsbD 3) more false (flagC f)

/-- F after CPI and CPD: `n = A - v - H` gives X and Y, `more` is BC != 0 (R219). -/
def blockCpFlags (v a f : Byte) (more : Bool) : Byte :=
  let r := a - v
  let hf := decide (a &&& 0x0F < v &&& 0x0F)
  let n := r - (if hf then 1 else 0)
  packFlags (r.getLsbD 7) (r == 0) (n.getLsbD 1) hf (n.getLsbD 3) more true (flagC f)

/-- F after a block I/O transfer of `v` that leaves B = `b'`, with `k = v + k2` (R403). -/
def blockIoFlags (v b' k2 : Byte) : Byte :=
  let k := v.toNat + k2.toNat
  packFlags (b'.getLsbD 7) (b' == 0) (b'.getLsbD 5) (decide (k > 0xFF)) (b'.getLsbD 3)
    (parity ((BitVec.ofNat 8 k &&& 7) ^^^ b')) (v.getLsbD 7) (decide (k > 0xFF))

/-- F with Y and X replaced by PC[13] and PC[11] (R216, R220 under `PC_HIGH`). -/
def withPcXY (f : Byte) (pc : Word) : Byte :=
  packFlags (flagS f) (flagZ f) (pc.getLsbD 13) (flagH f) (pc.getLsbD 11) (flagP f) (flagN f) (flagC f)

/-- F with Y, H, X and P/V replaced by those bits of a free byte (R403 under `PC_HIGH`). -/
def withFreeYHXP (f free : Byte) : Byte :=
  packFlags (flagS f) (flagZ f) (flagY free) (flagH free) (flagX free) (flagP free) (flagN f) (flagC f)

end Sys2Proof.Machine
end

