-- ==== Sys2Proof/Machine/Operands.lean ====
section
/-!
DEFINITION. Every operand form: the registers and pairs the field tables name (R126), the index registers and their halves
under DD/FD (R124), effective addresses (R88), and the X/Y source of SCF and CCF (R282).
-/

namespace Sys2Proof.Machine

/-- `r8[k]` read (R126). -/
def Module.reg8 (c : Module) : Reg8 → Byte
  | .b => c.b
  | .c => c.c
  | .d => c.d
  | .e => c.e
  | .h => c.h
  | .l => c.l
  | .a => c.a

/-- `r8[k] <- v` (R14, R126). -/
def Module.setReg8 (c : Module) (r : Reg8) (v : Byte) : Module :=
  match r with
  | .b => { c with b := v }
  | .c => { c with c := v }
  | .d => { c with d := v }
  | .e => { c with e := v }
  | .h => { c with h := v }
  | .l => { c with l := v }
  | .a => { c with a := v }

/-- `rp[k]` read (R126). -/
def Module.rp (c : Module) : Rp → Word
  | .bc => c.bc
  | .de => c.de
  | .hl => c.hl
  | .sp => c.sp

/-- `rp[k] <- v` (R126). -/
def Module.setRp (c : Module) (p : Rp) (v : Word) : Module :=
  match p with
  | .bc => c.setBc v
  | .de => c.setDe v
  | .hl => c.setHl v
  | .sp => { c with sp := v }

/-- `rp2[k]` read (R126). -/
def Module.rp2 (c : Module) : Rp2 → Word
  | .bc => c.bc
  | .de => c.de
  | .hl => c.hl
  | .af => c.af

/-- `rp2[k] <- v` (R126). -/
def Module.setRp2 (c : Module) (p : Rp2) (v : Word) : Module :=
  match p with
  | .bc => c.setBc v
  | .de => c.setDe v
  | .hl => c.setHl v
  | .af => c.setAf v

/-- The index register `xy` (R124). -/
def Module.idx (c : Module) : IdxReg → Word
  | .ix => c.ix
  | .iy => c.iy

/-- `xy <- v` (R124). -/
def Module.setIdx (c : Module) (x : IdxReg) (v : Word) : Module :=
  match x with
  | .ix => { c with ix := v }
  | .iy => { c with iy := v }

/-- The pair operand of ADD xy,pp (R303). -/
def Module.xp (c : Module) (x : IdxReg) : Xp → Word
  | .bc => c.bc
  | .de => c.de
  | .xy => c.idx x
  | .sp => c.sp

/-- xyH or xyL (R33, R124). -/
def Module.half (c : Module) (x : IdxReg) : Half → Byte
  | .hi => hiByte (c.idx x)
  | .lo => loByte (c.idx x)

/-- A write to a half changes the index register and keeps its other half (R14, R33). -/
def Module.setHalf (c : Module) (x : IdxReg) (h : Half) (v : Byte) : Module :=
  match h with
  | .hi => c.setIdx x (pair v (loByte (c.idx x)))
  | .lo => c.setIdx x (pair (hiByte (c.idx x)) v)

/-- An operand of LD p,p' (R168). -/
def Module.hreg (c : Module) (x : IdxReg) : HReg → Byte
  | .b => c.b
  | .c => c.c
  | .d => c.d
  | .e => c.e
  | .xh => c.half x .hi
  | .xl => c.half x .lo
  | .a => c.a

/-- A write to an operand of LD p,p' (R168). -/
def Module.setHreg (c : Module) (x : IdxReg) (p : HReg) (v : Byte) : Module :=
  match p with
  | .b => { c with b := v }
  | .c => { c with c := v }
  | .d => { c with d := v }
  | .e => { c with e := v }
  | .xh => c.setHalf x .hi v
  | .xl => c.setHalf x .lo v
  | .a => { c with a := v }

/-- The address of (IX+d) or (IY+d) (R88). -/
def Module.ea (c : Module) (x : IdxReg) (d : Byte) : Word := indexed (c.idx x) d

/-- The byte whose bits 5 and 3 SCF and CCF copy to Y and X (R282). -/
def xyScfCcf (k : ScfCcfXy) (c : Module) : Byte :=
  match k with
  | .a => c.a
  | .aOrF => c.a ||| c.f
  | .zilogQ => (c.q ^^^ c.f) ||| c.a

/-- The restart address `y * 8` (R133, R382). -/
def rstAddress (y : BitVec 3) : Word := BitVec.zeroExtend 16 y <<< 3

end Sys2Proof.Machine
end

