-- ==== Sys2Proof/Machine/Alu16.lean ====
section
/-!
DEFINITION. The 16-bit arithmetic group (45_alu16.md).
-/

namespace Sys2Proof.Machine

/-- `ADD HL,ss` (R300). -/
def execAddHlSs (ss : Rp) (s : State) : Result :=
  let a := s.core.hl
  let b := s.core.rp ss
  s.doneFlags 11 { s.core.setHl (a + b) with f := add16Flags a b s.core.f, memptr := a + 1 }

/-- `ADC HL,ss` (R301). -/
def execAdcHlSs (ss : Rp) (s : State) : Result :=
  let a := s.core.hl
  let b := s.core.rp ss
  let c := flagC s.core.f
  s.doneFlags 15 { s.core.setHl (a + b + carryWord c) with f := adc16Flags a b c, memptr := a + 1 }

/-- `SBC HL,ss` (R302). -/
def execSbcHlSs (ss : Rp) (s : State) : Result :=
  let a := s.core.hl
  let b := s.core.rp ss
  let c := flagC s.core.f
  s.doneFlags 15 { s.core.setHl (a - b - carryWord c) with f := sbc16Flags a b c, memptr := a + 1 }

/-- `ADD xy,pp` (R303). -/
def addIdxStep (x : IdxReg) (pp : Xp) (s : State) : Result :=
  let a := s.core.idx x
  let b := s.core.xp x pp
  s.doneFlags 15 { s.core.setIdx x (a + b) with f := add16Flags a b s.core.f, memptr := a + 1 }

/-- `ADD IX,pp` (R303). -/
def execAddIxPp (pp : Xp) (s : State) : Result := addIdxStep .ix pp s

/-- `ADD IY,pp` (R303). -/
def execAddIyPp (pp : Xp) (s : State) : Result := addIdxStep .iy pp s

/-- `INC ss` (R304). -/
def execIncSs (ss : Rp) (s : State) : Result := s.done 6 (s.core.setRp ss (s.core.rp ss + 1))

/-- `INC IX` (R305). -/
def execIncIx (s : State) : Result := s.done 10 { s.core with ix := s.core.ix + 1 }

/-- `INC IY` (R305). -/
def execIncIy (s : State) : Result := s.done 10 { s.core with iy := s.core.iy + 1 }

/-- `DEC ss` (R306). -/
def execDecSs (ss : Rp) (s : State) : Result := s.done 6 (s.core.setRp ss (s.core.rp ss - 1))

/-- `DEC IX` (R307). -/
def execDecIx (s : State) : Result := s.done 10 { s.core with ix := s.core.ix - 1 }

/-- `DEC IY` (R307). -/
def execDecIy (s : State) : Result := s.done 10 { s.core with iy := s.core.iy - 1 }

end Sys2Proof.Machine
end

