-- ==== Sys2Proof/Machine/Alu8.lean ====
section
/-!
DEFINITION. The 8-bit arithmetic and logic group (43_alu8.md). Every rule of the file writes flags, so every step ends with
Q <- F.
-/

namespace Sys2Proof.Machine

/-- An accumulator operation with operand `v` in `n` T-states (R243 to R250). -/
def aluStep (op : AluOp) (v : Byte) (n : Nat) (s : State) : Result :=
  s.doneFlags n { s.core with a := aluResult op s.core.a v s.core.f, f := aluFlags op s.core.a v s.core.f }

/-- The register form (R240). -/
def aluRegStep (op : AluOp) (r : Reg8) (s : State) : Result := aluStep op (s.core.reg8 r) 4 s

/-- The immediate form (R240). -/
def aluImmStep (op : AluOp) (n : Byte) (s : State) : Result := aluStep op n 7 s

/-- The (HL) form (R240). -/
def aluMHlStep (op : AluOp) (s : State) : Result := aluStep op (s.readByte s.core.hl) 7 s

/-- The (xy+d) form, with MEMPTR <- the address (R240). -/
def aluIdxStep (op : AluOp) (x : IdxReg) (d : Byte) (s : State) : Result :=
  let ea := s.core.ea x d
  aluStep op (s.readByte ea) 19 (s.mapCore fun c => { c with memptr := ea })

/-- The index-half form (R240). -/
def aluHalfStep (op : AluOp) (x : IdxReg) (h : Half) (s : State) : Result := aluStep op (s.core.half x h) 8 s

/-- `ADD A,r` (R243). -/
def execAddAR (r : Reg8) (s : State) : Result := aluRegStep .add r s

/-- `ADD A,n` (R243). -/
def execAddAN (n : Byte) (s : State) : Result := aluImmStep .add n s

/-- `ADD A,(HL)` (R243). -/
def execAddAMHl (s : State) : Result := aluMHlStep .add s

/-- `ADD A,(IX+d)` (R243). -/
def execAddAMIx (d : Byte) (s : State) : Result := aluIdxStep .add .ix d s

/-- `ADD A,(IY+d)` (R243). -/
def execAddAMIy (d : Byte) (s : State) : Result := aluIdxStep .add .iy d s

/-- `ADD A,xyH` and `ADD A,xyL` (R243). -/
def execAddAHalf (x : IdxReg) (h : Half) (s : State) : Result := aluHalfStep .add x h s

/-- `ADC A,r` (R244). -/
def execAdcAR (r : Reg8) (s : State) : Result := aluRegStep .adc r s

/-- `ADC A,n` (R244). -/
def execAdcAN (n : Byte) (s : State) : Result := aluImmStep .adc n s

/-- `ADC A,(HL)` (R244). -/
def execAdcAMHl (s : State) : Result := aluMHlStep .adc s

/-- `ADC A,(IX+d)` (R244). -/
def execAdcAMIx (d : Byte) (s : State) : Result := aluIdxStep .adc .ix d s

/-- `ADC A,(IY+d)` (R244). -/
def execAdcAMIy (d : Byte) (s : State) : Result := aluIdxStep .adc .iy d s

/-- `ADC A,xyH` and `ADC A,xyL` (R244). -/
def execAdcAHalf (x : IdxReg) (h : Half) (s : State) : Result := aluHalfStep .adc x h s

/-- `SUB r` (R245). -/
def execSubR (r : Reg8) (s : State) : Result := aluRegStep .sub r s

/-- `SUB n` (R245). -/
def execSubN (n : Byte) (s : State) : Result := aluImmStep .sub n s

/-- `SUB (HL)` (R245). -/
def execSubMHl (s : State) : Result := aluMHlStep .sub s

/-- `SUB (IX+d)` (R245). -/
def execSubMIx (d : Byte) (s : State) : Result := aluIdxStep .sub .ix d s

/-- `SUB (IY+d)` (R245). -/
def execSubMIy (d : Byte) (s : State) : Result := aluIdxStep .sub .iy d s

/-- `SUB xyH` and `SUB xyL` (R245). -/
def execSubHalf (x : IdxReg) (h : Half) (s : State) : Result := aluHalfStep .sub x h s

/-- `SBC A,r` (R246). -/
def execSbcAR (r : Reg8) (s : State) : Result := aluRegStep .sbc r s

/-- `SBC A,n` (R246). -/
def execSbcAN (n : Byte) (s : State) : Result := aluImmStep .sbc n s

/-- `SBC A,(HL)` (R246). -/
def execSbcAMHl (s : State) : Result := aluMHlStep .sbc s

/-- `SBC A,(IX+d)` (R246). -/
def execSbcAMIx (d : Byte) (s : State) : Result := aluIdxStep .sbc .ix d s

/-- `SBC A,(IY+d)` (R246). -/
def execSbcAMIy (d : Byte) (s : State) : Result := aluIdxStep .sbc .iy d s

/-- `SBC A,xyH` and `SBC A,xyL` (R246). -/
def execSbcAHalf (x : IdxReg) (h : Half) (s : State) : Result := aluHalfStep .sbc x h s

/-- `AND r` (R247). -/
def execAndR (r : Reg8) (s : State) : Result := aluRegStep .and r s

/-- `AND n` (R247). -/
def execAndN (n : Byte) (s : State) : Result := aluImmStep .and n s

/-- `AND (HL)` (R247). -/
def execAndMHl (s : State) : Result := aluMHlStep .and s

/-- `AND (IX+d)` (R247). -/
def execAndMIx (d : Byte) (s : State) : Result := aluIdxStep .and .ix d s

/-- `AND (IY+d)` (R247). -/
def execAndMIy (d : Byte) (s : State) : Result := aluIdxStep .and .iy d s

/-- `AND xyH` and `AND xyL` (R247). -/
def execAndHalf (x : IdxReg) (h : Half) (s : State) : Result := aluHalfStep .and x h s

/-- `XOR r` (R248). -/
def execXorR (r : Reg8) (s : State) : Result := aluRegStep .xor r s

/-- `XOR n` (R248). -/
def execXorN (n : Byte) (s : State) : Result := aluImmStep .xor n s

/-- `XOR (HL)` (R248). -/
def execXorMHl (s : State) : Result := aluMHlStep .xor s

/-- `XOR (IX+d)` (R248). -/
def execXorMIx (d : Byte) (s : State) : Result := aluIdxStep .xor .ix d s

/-- `XOR (IY+d)` (R248). -/
def execXorMIy (d : Byte) (s : State) : Result := aluIdxStep .xor .iy d s

/-- `XOR xyH` and `XOR xyL` (R248). -/
def execXorHalf (x : IdxReg) (h : Half) (s : State) : Result := aluHalfStep .xor x h s

/-- `OR r` (R249). -/
def execOrR (r : Reg8) (s : State) : Result := aluRegStep .or r s

/-- `OR n` (R249). -/
def execOrN (n : Byte) (s : State) : Result := aluImmStep .or n s

/-- `OR (HL)` (R249). -/
def execOrMHl (s : State) : Result := aluMHlStep .or s

/-- `OR (IX+d)` (R249). -/
def execOrMIx (d : Byte) (s : State) : Result := aluIdxStep .or .ix d s

/-- `OR (IY+d)` (R249). -/
def execOrMIy (d : Byte) (s : State) : Result := aluIdxStep .or .iy d s

/-- `OR xyH` and `OR xyL` (R249). -/
def execOrHalf (x : IdxReg) (h : Half) (s : State) : Result := aluHalfStep .or x h s

/-- `CP r` (R250). -/
def execCpR (r : Reg8) (s : State) : Result := aluRegStep .cp r s

/-- `CP n` (R250). -/
def execCpN (n : Byte) (s : State) : Result := aluImmStep .cp n s

/-- `CP (HL)` (R250). -/
def execCpMHl (s : State) : Result := aluMHlStep .cp s

/-- `CP (IX+d)` (R250). -/
def execCpMIx (d : Byte) (s : State) : Result := aluIdxStep .cp .ix d s

/-- `CP (IY+d)` (R250). -/
def execCpMIy (d : Byte) (s : State) : Result := aluIdxStep .cp .iy d s

/-- `CP xyH` and `CP xyL` (R250). -/
def execCpHalf (x : IdxReg) (h : Half) (s : State) : Result := aluHalfStep .cp x h s

/-! ### INC and DEC (R251 to R256) -/

/-- `INC r` (R251). -/
def execIncR (r : Reg8) (s : State) : Result :=
  s.doneFlags 4 { s.core.setReg8 r (s.core.reg8 r + 1) with f := incFlags (s.core.reg8 r) s.core.f }

/-- `INC xyH` and `INC xyL` (R251). -/
def execIncHalf (x : IdxReg) (h : Half) (s : State) : Result :=
  s.doneFlags 8 { s.core.setHalf x h (s.core.half x h + 1) with f := incFlags (s.core.half x h) s.core.f }

/-- `DEC r` (R254). -/
def execDecR (r : Reg8) (s : State) : Result :=
  s.doneFlags 4 { s.core.setReg8 r (s.core.reg8 r - 1) with f := decFlags (s.core.reg8 r) s.core.f }

/-- `DEC xyH` and `DEC xyL` (R254). -/
def execDecHalf (x : IdxReg) (h : Half) (s : State) : Result :=
  s.doneFlags 8 { s.core.setHalf x h (s.core.half x h - 1) with f := decFlags (s.core.half x h) s.core.f }

/-- A read-modify-write of the byte at `a`: `g` gives the new byte, `fl` the new F from the old byte and F (R87, R252). -/
def modifyByte (a : Word) (g : Byte → Byte) (fl : Byte → Byte → Byte) (n : Nat) (s : State) : Result :=
  let v := s.readByte a
  let s1 := s.writeByte a (g v)
  s1.doneFlags n { s1.core with f := fl v s1.core.f }

/-- The (xy+d) form of a read-modify-write, with MEMPTR <- the address (R253). -/
def modifyIndexed (x : IdxReg) (d : Byte) (g : Byte → Byte) (fl : Byte → Byte → Byte) (n : Nat) (s : State) : Result :=
  modifyByte (s.core.ea x d) g fl n (s.mapCore fun c => { c with memptr := s.core.ea x d })

/-- `INC (HL)` (R252). -/
def execIncMHl (s : State) : Result := modifyByte s.core.hl (· + 1) incFlags 11 s

/-- `INC (IX+d)` (R253). -/
def execIncMIx (d : Byte) (s : State) : Result := modifyIndexed .ix d (· + 1) incFlags 23 s

/-- `INC (IY+d)` (R253). -/
def execIncMIy (d : Byte) (s : State) : Result := modifyIndexed .iy d (· + 1) incFlags 23 s

/-- `DEC (HL)` (R255). -/
def execDecMHl (s : State) : Result := modifyByte s.core.hl (· - 1) decFlags 11 s

/-- `DEC (IX+d)` (R256). -/
def execDecMIx (d : Byte) (s : State) : Result := modifyIndexed .ix d (· - 1) decFlags 23 s

/-- `DEC (IY+d)` (R256). -/
def execDecMIy (d : Byte) (s : State) : Result := modifyIndexed .iy d (· - 1) decFlags 23 s

end Sys2Proof.Machine
end

