-- ==== Sys2Proof/Machine/Rotate.lean ====
section
/-!
DEFINITION. The rotate and shift group (46_rotate_shift.md).
-/

namespace Sys2Proof.Machine

/-- An accumulator rotate; it keeps S, Z and P/V (R320). -/
def rotAStep (op : RotOp) (s : State) : Result :=
  s.doneFlags 4 { s.core with a := rotResult op s.core.a (flagC s.core.f), f := rotAFlags op s.core.a s.core.f }

/-- `RLCA` (R320). -/
def execRlca (s : State) : Result := rotAStep .rlc s

/-- `RRCA` (R320). -/
def execRrca (s : State) : Result := rotAStep .rrc s

/-- `RLA` (R320). -/
def execRla (s : State) : Result := rotAStep .rl s

/-- `RRA` (R320). -/
def execRra (s : State) : Result := rotAStep .rr s

/-- `rot r` (R322). -/
def rotRegStep (op : RotOp) (r : Reg8) (s : State) : Result :=
  let v := s.core.reg8 r
  let c := flagC s.core.f
  s.doneFlags 8 { s.core.setReg8 r (rotResult op v c) with f := rotFlags op v c }

/-- `RLC r` (R322). -/
def execRlcR (r : Reg8) (s : State) : Result := rotRegStep .rlc r s

/-- `RRC r` (R322). -/
def execRrcR (r : Reg8) (s : State) : Result := rotRegStep .rrc r s

/-- `RL r` (R322). -/
def execRlR (r : Reg8) (s : State) : Result := rotRegStep .rl r s

/-- `RR r` (R322). -/
def execRrR (r : Reg8) (s : State) : Result := rotRegStep .rr r s

/-- `SLA r` (R322). -/
def execSlaR (r : Reg8) (s : State) : Result := rotRegStep .sla r s

/-- `SRA r` (R322). -/
def execSraR (r : Reg8) (s : State) : Result := rotRegStep .sra r s

/-- `SLL r` (R322). -/
def execSllR (r : Reg8) (s : State) : Result := rotRegStep .sll r s

/-- `SRL r` (R322). -/
def execSrlR (r : Reg8) (s : State) : Result := rotRegStep .srl r s

/-- `rot (HL)` (R323). -/
def execRotMHl (op : RotOp) (s : State) : Result :=
  let v := s.readByte s.core.hl
  let c := flagC s.core.f
  let s1 := s.writeByte s.core.hl (rotResult op v c)
  s1.doneFlags 15 { s1.core with f := rotFlags op v c }

/-- The register a DDCB/FDCB form also writes, if any: the real one (R125). -/
def copyTo (r : Option Reg8) (v : Byte) (c : Module) : Module :=
  match r with
  | some r => c.setReg8 r v
  | none => c

/-- `rot (xy+d)`, with the copy forms (R324). -/
def rotIdxStep (x : IdxReg) (op : RotOp) (r : Option Reg8) (d : Byte) (s : State) : Result :=
  let ea := s.core.ea x d
  let v := s.readByte ea
  let c := flagC s.core.f
  let s1 := s.writeByte ea (rotResult op v c)
  s1.doneFlags 23 { copyTo r (rotResult op v c) s1.core with f := rotFlags op v c, memptr := ea }

/-- `rot (IX+d)` (R324). -/
def execRotMIx (op : RotOp) (d : Byte) (s : State) : Result := rotIdxStep .ix op none d s

/-- `rot (IX+d),r` (R324). -/
def execRotMIxR (op : RotOp) (r : Reg8) (d : Byte) (s : State) : Result := rotIdxStep .ix op (some r) d s

/-- `rot (IY+d)` (R324). -/
def execRotMIy (op : RotOp) (d : Byte) (s : State) : Result := rotIdxStep .iy op none d s

/-- `rot (IY+d),r` (R324). -/
def execRotMIyR (op : RotOp) (r : Reg8) (d : Byte) (s : State) : Result := rotIdxStep .iy op (some r) d s

/-- RLD and RRD: A and the byte at HL are replaced, MEMPTR <- HL + 1 (R325, R326). -/
def digitStep (a' m' : Byte) (s : State) : Result :=
  let s1 := s.writeByte s.core.hl m'
  s1.doneFlags 18 { s1.core with a := a', f := inFlags a' s1.core.f, memptr := s1.core.hl + 1 }

/-- `RLD` (R325). -/
def execRld (s : State) : Result :=
  let m := s.readByte s.core.hl
  let a := s.core.a
  digitStep ((a &&& 0xF0) ||| (m >>> 4)) ((m <<< 4) ||| (a &&& 0x0F)) s

/-- `RRD` (R326). -/
def execRrd (s : State) : Result :=
  let m := s.readByte s.core.hl
  let a := s.core.a
  digitStep ((a &&& 0xF0) ||| (m &&& 0x0F)) (((a &&& 0x0F) <<< 4) ||| (m >>> 4)) s

end Sys2Proof.Machine
end

