-- ==== Sys2Proof/Machine/BitOps.lean ====
section
/-!
DEFINITION. The bit set, reset and test group (47_bit.md).
-/

namespace Sys2Proof.Machine

/-- `BIT b,r` (R350). -/
def execBitR (b : BitVec 3) (r : Reg8) (s : State) : Result :=
  s.doneFlags 8 { s.core with f := bitFlags b (s.core.reg8 r) (s.core.reg8 r) s.core.f }

/-- `BIT b,(HL)`: Y and X from the high byte of MEMPTR (R351). -/
def execBitMHl (b : BitVec 3) (s : State) : Result :=
  s.doneFlags 12 { s.core with f := bitFlags b (s.readByte s.core.hl) (hiByte s.core.memptr) s.core.f }

/-- `BIT b,(xy+d)`: Y and X from the high byte of the address (R352). -/
def bitIdxStep (x : IdxReg) (b : BitVec 3) (d : Byte) (s : State) : Result :=
  let ea := s.core.ea x d
  s.doneFlags 20 { s.core with f := bitFlags b (s.readByte ea) (hiByte ea) s.core.f, memptr := ea }

/-- `BIT b,(IX+d)`, for every z (R352). -/
def execBitMIx (b _z : BitVec 3) (d : Byte) (s : State) : Result := bitIdxStep .ix b d s

/-- `BIT b,(IY+d)`, for every z (R352). -/
def execBitMIy (b _z : BitVec 3) (d : Byte) (s : State) : Result := bitIdxStep .iy b d s

/-- The byte with bit `b` set (R353). -/
def setBit (b : BitVec 3) (v : Byte) : Byte := v ||| bitMask b

/-- The byte with bit `b` reset (R356). -/
def resetBit (b : BitVec 3) (v : Byte) : Byte := v &&& ~~~(bitMask b)

/-- `SET b,r` (R353). -/
def execSetR (b : BitVec 3) (r : Reg8) (s : State) : Result :=
  s.done 8 (s.core.setReg8 r (setBit b (s.core.reg8 r)))

/-- `RES b,r` (R356). -/
def execResR (b : BitVec 3) (r : Reg8) (s : State) : Result :=
  s.done 8 (s.core.setReg8 r (resetBit b (s.core.reg8 r)))

/-- SET and RES of the byte at HL, which write no flag (R354, R357). -/
def bitWriteMHl (g : Byte → Byte) (s : State) : Result :=
  let s1 := s.writeByte s.core.hl (g (s.readByte s.core.hl))
  s1.done 15 s1.core

/-- `SET b,(HL)` (R354). -/
def execSetMHl (b : BitVec 3) (s : State) : Result := bitWriteMHl (setBit b) s

/-- `RES b,(HL)` (R357). -/
def execResMHl (b : BitVec 3) (s : State) : Result := bitWriteMHl (resetBit b) s

/-- SET and RES of the byte at (xy+d), with the copy forms (R355, R358). -/
def bitWriteIdx (x : IdxReg) (g : Byte → Byte) (r : Option Reg8) (d : Byte) (s : State) : Result :=
  let ea := s.core.ea x d
  let v := g (s.readByte ea)
  let s1 := s.writeByte ea v
  s1.done 23 { copyTo r v s1.core with memptr := ea }

/-- `SET b,(IX+d)` (R355). -/
def execSetMIx (b : BitVec 3) (d : Byte) (s : State) : Result := bitWriteIdx .ix (setBit b) none d s

/-- `SET b,(IX+d),r` (R355). -/
def execSetMIxR (b : BitVec 3) (r : Reg8) (d : Byte) (s : State) : Result := bitWriteIdx .ix (setBit b) (some r) d s

/-- `RES b,(IX+d)` (R358). -/
def execResMIx (b : BitVec 3) (d : Byte) (s : State) : Result := bitWriteIdx .ix (resetBit b) none d s

/-- `RES b,(IX+d),r` (R358). -/
def execResMIxR (b : BitVec 3) (r : Reg8) (d : Byte) (s : State) : Result := bitWriteIdx .ix (resetBit b) (some r) d s

/-- `SET b,(IY+d)` (R355). -/
def execSetMIy (b : BitVec 3) (d : Byte) (s : State) : Result := bitWriteIdx .iy (setBit b) none d s

/-- `SET b,(IY+d),r` (R355). -/
def execSetMIyR (b : BitVec 3) (r : Reg8) (d : Byte) (s : State) : Result := bitWriteIdx .iy (setBit b) (some r) d s

/-- `RES b,(IY+d)` (R358). -/
def execResMIy (b : BitVec 3) (d : Byte) (s : State) : Result := bitWriteIdx .iy (resetBit b) none d s

/-- `RES b,(IY+d),r` (R358). -/
def execResMIyR (b : BitVec 3) (r : Reg8) (d : Byte) (s : State) : Result := bitWriteIdx .iy (resetBit b) (some r) d s

end Sys2Proof.Machine
end

