-- ==== Sys2Proof/Syntax.lean ====
section
/-!
DEFINITION. The instructions: one constructor per mnemonic of spec/opcode_table.json, with the operands its encoding
carries. `M` in a name stands for a memory operand: `ldRMHl` is LD r,(HL).
-/

namespace Sys2Proof

/-- An instruction of the Z80 with its operands (R120 to R136). -/
inductive Instr where
  /-- `NOP`: 00 (R275). -/
  | nop
  /-- `LD dd,nn`: 00pp0001 nl nh (R180). -/
  | ldDdNn (dd : Rp) (nn : Word)
  /-- `LD (BC),A`: 02 (R161). -/
  | ldMBcA
  /-- `INC ss`: 00pp0011 (R304). -/
  | incSs (ss : Rp)
  /-- `INC r`: 00yyy100 (R251). -/
  | incR (r : Reg8)
  /-- `DEC r`: 00yyy101 (R254). -/
  | decR (r : Reg8)
  /-- `LD r,n`: 00yyy110 n (R151). -/
  | ldRN (r : Reg8) (n : Byte)
  /-- `RLCA`: 07 (R320). -/
  | rlca
  /-- `EX AF,AF'`: 08 (R211). -/
  | exAfAf
  /-- `ADD HL,ss`: 00pp1001 (R300). -/
  | addHlSs (ss : Rp)
  /-- `LD A,(BC)`: 0A (R158). -/
  | ldAMBc
  /-- `DEC ss`: 00pp1011 (R306). -/
  | decSs (ss : Rp)
  /-- `RRCA`: 0F (R320). -/
  | rrca
  /-- `DJNZ e`: 10 e (R377). -/
  | djnz (e : Byte)
  /-- `LD (DE),A`: 12 (R162). -/
  | ldMDeA
  /-- `RLA`: 17 (R320). -/
  | rla
  /-- `JR e`: 18 e (R373). -/
  | jr (e : Byte)
  /-- `LD A,(DE)`: 1A (R159). -/
  | ldAMDe
  /-- `RRA`: 1F (R320). -/
  | rra
  /-- `JR cc,e`: 001cc000 e (R374). -/
  | jrCc (cc : JrCond) (e : Byte)
  /-- `LD (nn),HL`: 22 nl nh (R185). -/
  | ldMNnHl (nn : Word)
  /-- `DAA`: 27 (R270). -/
  | daa
  /-- `LD HL,(nn)`: 2A nl nh (R182). -/
  | ldHlMNn (nn : Word)
  /-- `CPL`: 2F (R271). -/
  | cpl
  /-- `LD (nn),A`: 32 nl nh (R163). -/
  | ldMNnA (nn : Word)
  /-- `INC (HL)`: 34 (R252). -/
  | incMHl
  /-- `DEC (HL)`: 35 (R255). -/
  | decMHl
  /-- `LD (HL),n`: 36 n (R156). -/
  | ldMHlN (n : Byte)
  /-- `SCF`: 37 (R274). -/
  | scf
  /-- `LD A,(nn)`: 3A nl nh (R160). -/
  | ldAMNn (nn : Word)
  /-- `CCF`: 3F (R273). -/
  | ccf
  /-- `LD r,r'`: 01yyyzzz (R150). -/
  | ldRR (r : Reg8) (r' : Reg8)
  /-- `LD r,(HL)`: 01yyy110 (R152). -/
  | ldRMHl (r : Reg8)
  /-- `LD (HL),r`: 01110zzz (R154). -/
  | ldMHlR (r : Reg8)
  /-- `HALT`: 76 (R276). -/
  | halt
  /-- `ADD A,r`: 10000zzz (R243). -/
  | addAR (r : Reg8)
  /-- `ADD A,(HL)`: 10000110 (R243). -/
  | addAMHl
  /-- `ADC A,r`: 10001zzz (R244). -/
  | adcAR (r : Reg8)
  /-- `ADC A,(HL)`: 10001110 (R244). -/
  | adcAMHl
  /-- `SUB r`: 10010zzz (R245). -/
  | subR (r : Reg8)
  /-- `SUB (HL)`: 10010110 (R245). -/
  | subMHl
  /-- `SBC A,r`: 10011zzz (R246). -/
  | sbcAR (r : Reg8)
  /-- `SBC A,(HL)`: 10011110 (R246). -/
  | sbcAMHl
  /-- `AND r`: 10100zzz (R247). -/
  | andR (r : Reg8)
  /-- `AND (HL)`: 10100110 (R247). -/
  | andMHl
  /-- `XOR r`: 10101zzz (R248). -/
  | xorR (r : Reg8)
  /-- `XOR (HL)`: 10101110 (R248). -/
  | xorMHl
  /-- `OR r`: 10110zzz (R249). -/
  | orR (r : Reg8)
  /-- `OR (HL)`: 10110110 (R249). -/
  | orMHl
  /-- `CP r`: 10111zzz (R250). -/
  | cpR (r : Reg8)
  /-- `CP (HL)`: 10111110 (R250). -/
  | cpMHl
  /-- `RET cc`: 11ccc000 (R381). -/
  | retCc (cc : Cond)
  /-- `POP qq`: 11pp0001 (R192). -/
  | popQq (qq : Rp2)
  /-- `JP cc,nn`: 11ccc010 nl nh (R372). -/
  | jpCcNn (cc : Cond) (nn : Word)
  /-- `JP nn`: C3 nl nh (R371). -/
  | jpNn (nn : Word)
  /-- `CALL cc,nn`: 11ccc100 nl nh (R379). -/
  | callCcNn (cc : Cond) (nn : Word)
  /-- `PUSH qq`: 11pp0101 (R190). -/
  | pushQq (qq : Rp2)
  /-- `RST p`: 11yyy111 (R382). -/
  | rst (y : BitVec 3)
  /-- `RET`: C9 (R380). -/
  | ret
  /-- `CALL nn`: CD nl nh (R378). -/
  | callNn (nn : Word)
  /-- `OUT (n),A`: D3 n (R408). -/
  | outNA (n : Byte)
  /-- `EXX`: D9 (R212). -/
  | exx
  /-- `IN A,(n)`: DB n (R400). -/
  | inAN (n : Byte)
  /-- `EX (SP),HL`: E3 (R213). -/
  | exMSpHl
  /-- `JP (HL)`: E9 (R375). -/
  | jpHl
  /-- `EX DE,HL`: EB (R210). -/
  | exDeHl
  /-- `DI`: F3 (R277). -/
  | di
  /-- `LD SP,HL`: F9 (R188). -/
  | ldSpHl
  /-- `EI`: FB (R278). -/
  | ei
  /-- `ADD A,n`: 11000110 n (R243). -/
  | addAN (n : Byte)
  /-- `ADC A,n`: 11001110 n (R244). -/
  | adcAN (n : Byte)
  /-- `SUB n`: 11010110 n (R245). -/
  | subN (n : Byte)
  /-- `SBC A,n`: 11011110 n (R246). -/
  | sbcAN (n : Byte)
  /-- `AND n`: 11100110 n (R247). -/
  | andN (n : Byte)
  /-- `XOR n`: 11101110 n (R248). -/
  | xorN (n : Byte)
  /-- `OR n`: 11110110 n (R249). -/
  | orN (n : Byte)
  /-- `CP n`: 11111110 n (R250). -/
  | cpN (n : Byte)
  /-- `prefix CB`: CB alone: the rest not fetched yet (R132). -/
  | prefixCb
  /-- `prefix DD`: DD alone: the rest not fetched yet (R132). -/
  | prefixDd
  /-- `prefix ED`: ED alone: the rest not fetched yet (R132). -/
  | prefixEd
  /-- `prefix FD`: FD alone: the rest not fetched yet (R132). -/
  | prefixFd
  /-- `RLC r`: CB 00000zzz (R322). -/
  | rlcR (r : Reg8)
  /-- `RRC r`: CB 00001zzz (R322). -/
  | rrcR (r : Reg8)
  /-- `RL r`: CB 00010zzz (R322). -/
  | rlR (r : Reg8)
  /-- `RR r`: CB 00011zzz (R322). -/
  | rrR (r : Reg8)
  /-- `SLA r`: CB 00100zzz (R322). -/
  | slaR (r : Reg8)
  /-- `SRA r`: CB 00101zzz (R322). -/
  | sraR (r : Reg8)
  /-- `SLL r`: CB 00110zzz (R322). -/
  | sllR (r : Reg8)
  /-- `SRL r`: CB 00111zzz (R322). -/
  | srlR (r : Reg8)
  /-- `rot (HL)`: CB 00yyy110 (R323). -/
  | rotMHl (op : RotOp)
  /-- `BIT b,r`: CB 01bbbzzz (R350). -/
  | bitR (b : BitVec 3) (r : Reg8)
  /-- `BIT b,(HL)`: CB 01bbb110 (R351). -/
  | bitMHl (b : BitVec 3)
  /-- `RES b,r`: CB 10bbbzzz (R356). -/
  | resR (b : BitVec 3) (r : Reg8)
  /-- `RES b,(HL)`: CB 10bbb110 (R357). -/
  | resMHl (b : BitVec 3)
  /-- `SET b,r`: CB 11bbbzzz (R353). -/
  | setR (b : BitVec 3) (r : Reg8)
  /-- `SET b,(HL)`: CB 11bbb110 (R354). -/
  | setMHl (b : BitVec 3)
  /-- `NONI`: ED op, for an op R129 gives no instruction (R283). -/
  | noni (op : Byte)
  /-- `IN r,(C)`: ED 01yyy000 (R401). -/
  | inRC (r : Reg8)
  /-- `OUT (C),r`: ED 01yyy001 (R409). -/
  | outCR (r : Reg8)
  /-- `SBC HL,ss`: ED 01pp0010 (R302). -/
  | sbcHlSs (ss : Rp)
  /-- `LD (nn),dd (ED)`: ED 01pp0011 nl nh (R186). -/
  | ldMNnDd (dd : Rp) (nn : Word)
  /-- `NEG`: ED 01yyy100; y tells the duplicates apart (R272). -/
  | neg (y : BitVec 3)
  /-- `RETN`: ED 01yyy101 with y not 1; y tells the duplicates apart (R384). -/
  | retn (y : BitVec 3)
  /-- `IM 0`: ED 01k0k110 with the two bits of k, 46 4E 66 6E (R279). -/
  | im0 (k : BitVec 2)
  /-- `LD I,A`: ED 47 (R166). -/
  | ldIA
  /-- `ADC HL,ss`: ED 01pp1010 (R301). -/
  | adcHlSs (ss : Rp)
  /-- `LD dd,(nn) (ED)`: ED 01pp1011 nl nh (R183). -/
  | ldDdMNn (dd : Rp) (nn : Word)
  /-- `RETI`: ED 4D (R385). -/
  | reti
  /-- `LD R,A`: ED 4F (R167). -/
  | ldRA
  /-- `IM 1`: ED 01k10110, 56 and 76 (R280). -/
  | im1 (k : BitVec 1)
  /-- `LD A,I`: ED 57 (R164). -/
  | ldAI
  /-- `IM 2`: ED 01k11110, 5E and 7E (R281). -/
  | im2 (k : BitVec 1)
  /-- `LD A,R`: ED 5F (R165). -/
  | ldAR
  /-- `RRD`: ED 67 (R326). -/
  | rrd
  /-- `RLD`: ED 6F (R325). -/
  | rld
  /-- `IN (C)`: ED 70 (R402). -/
  | inC
  /-- `OUT (C),0`: ED 71 (R410). -/
  | outC0
  /-- `LDI`: ED A0 (R215). -/
  | ldi
  /-- `CPI`: ED A1 (R219). -/
  | cpi
  /-- `INI`: ED A2 (R404). -/
  | ini
  /-- `OUTI`: ED A3 (R411). -/
  | outi
  /-- `LDD`: ED A8 (R217). -/
  | ldd
  /-- `CPD`: ED A9 (R221). -/
  | cpd
  /-- `IND`: ED AA (R406). -/
  | ind
  /-- `OUTD`: ED AB (R413). -/
  | outd
  /-- `LDIR`: ED B0 (R216). -/
  | ldir
  /-- `CPIR`: ED B1 (R220). -/
  | cpir
  /-- `INIR`: ED B2 (R405). -/
  | inir
  /-- `OTIR`: ED B3 (R412). -/
  | otir
  /-- `LDDR`: ED B8 (R218). -/
  | lddr
  /-- `CPDR`: ED B9 (R222). -/
  | cpdr
  /-- `INDR`: ED BA (R407). -/
  | indr
  /-- `OTDR`: ED BB (R414). -/
  | otdr
  /-- `DD/FD + unaffected opcode`: DD or FD, then the unaffected unprefixed instruction op (R286). -/
  | ddFd (x : IdxReg) (op : Instr)
  /-- `ignored prefix`: DD or FD with DD, ED or FD after it (R285). -/
  | ignoredPrefix (x : IdxReg)
  /-- `INC xyH/xyL`: DD/FD 0010h100 (R251). -/
  | incHalf (x : IdxReg) (h : Half)
  /-- `DEC xyH/xyL`: DD/FD 0010h101 (R254). -/
  | decHalf (x : IdxReg) (h : Half)
  /-- `LD xyH/xyL,n`: DD/FD 0010h110 n (R169). -/
  | ldHalfN (x : IdxReg) (h : Half) (n : Byte)
  /-- `LD p,p' (index half)`: DD/FD 01yyyzzz with H or L among the operands read as xyH, xyL (R168). -/
  | ldPP (x : IdxReg) (p : HReg) (p' : HReg)
  /-- `ADD A,xyH/xyL`: DD/FD 1000010h (R243). -/
  | addAHalf (x : IdxReg) (h : Half)
  /-- `ADC A,xyH/xyL`: DD/FD 1000110h (R244). -/
  | adcAHalf (x : IdxReg) (h : Half)
  /-- `SUB xyH/xyL`: DD/FD 1001010h (R245). -/
  | subHalf (x : IdxReg) (h : Half)
  /-- `SBC A,xyH/xyL`: DD/FD 1001110h (R246). -/
  | sbcAHalf (x : IdxReg) (h : Half)
  /-- `AND xyH/xyL`: DD/FD 1010010h (R247). -/
  | andHalf (x : IdxReg) (h : Half)
  /-- `XOR xyH/xyL`: DD/FD 1010110h (R248). -/
  | xorHalf (x : IdxReg) (h : Half)
  /-- `OR xyH/xyL`: DD/FD 1011010h (R249). -/
  | orHalf (x : IdxReg) (h : Half)
  /-- `CP xyH/xyL`: DD/FD 1011110h (R250). -/
  | cpHalf (x : IdxReg) (h : Half)
  /-- `ADD IX,pp`: DD 00pp1001 (R303). -/
  | addIxPp (pp : Xp)
  /-- `LD IX,nn`: DD 21 nl nh (R181). -/
  | ldIxNn (nn : Word)
  /-- `LD (nn),IX`: DD 22 nl nh (R187). -/
  | ldMNnIx (nn : Word)
  /-- `INC IX`: DD 23 (R305). -/
  | incIx
  /-- `LD IX,(nn)`: DD 2A nl nh (R184). -/
  | ldIxMNn (nn : Word)
  /-- `DEC IX`: DD 2B (R307). -/
  | decIx
  /-- `INC (IX+d)`: DD 34 d (R253). -/
  | incMIx (d : Byte)
  /-- `DEC (IX+d)`: DD 35 d (R256). -/
  | decMIx (d : Byte)
  /-- `LD (IX+d),n`: DD 36 d n (R157). -/
  | ldMIxN (d : Byte) (n : Byte)
  /-- `LD r,(IX+d)`: DD 01yyy110 d (R153). -/
  | ldRMIx (r : Reg8) (d : Byte)
  /-- `LD (IX+d),r`: DD 01110zzz d (R155). -/
  | ldMIxR (r : Reg8) (d : Byte)
  /-- `ADD A,(IX+d)`: DD 10000110 d (R243). -/
  | addAMIx (d : Byte)
  /-- `ADC A,(IX+d)`: DD 10001110 d (R244). -/
  | adcAMIx (d : Byte)
  /-- `SUB (IX+d)`: DD 10010110 d (R245). -/
  | subMIx (d : Byte)
  /-- `SBC A,(IX+d)`: DD 10011110 d (R246). -/
  | sbcAMIx (d : Byte)
  /-- `AND (IX+d)`: DD 10100110 d (R247). -/
  | andMIx (d : Byte)
  /-- `XOR (IX+d)`: DD 10101110 d (R248). -/
  | xorMIx (d : Byte)
  /-- `OR (IX+d)`: DD 10110110 d (R249). -/
  | orMIx (d : Byte)
  /-- `CP (IX+d)`: DD 10111110 d (R250). -/
  | cpMIx (d : Byte)
  /-- `prefix DDCB`: DD CB alone: the rest not fetched yet (R131). -/
  | prefixDdCb
  /-- `POP IX`: DD E1 (R193). -/
  | popIx
  /-- `EX (SP),IX`: DD E3 (R214). -/
  | exMSpIx
  /-- `PUSH IX`: DD E5 (R191). -/
  | pushIx
  /-- `JP (IX)`: DD E9 (R376). -/
  | jpIx
  /-- `LD SP,IX`: DD F9 (R189). -/
  | ldSpIx
  /-- `rot (IX+d),r`: DD CB d 00yyyzzz (R324). -/
  | rotMIxR (op : RotOp) (r : Reg8) (d : Byte)
  /-- `rot (IX+d)`: DD CB d 00yyy110 (R324). -/
  | rotMIx (op : RotOp) (d : Byte)
  /-- `BIT b,(IX+d)`: DD CB d 01bbbzzz; z tells the duplicates apart (R352). -/
  | bitMIx (b : BitVec 3) (z : BitVec 3) (d : Byte)
  /-- `RES b,(IX+d),r`: DD CB d 10bbbzzz (R358). -/
  | resMIxR (b : BitVec 3) (r : Reg8) (d : Byte)
  /-- `RES b,(IX+d)`: DD CB d 10bbb110 (R358). -/
  | resMIx (b : BitVec 3) (d : Byte)
  /-- `SET b,(IX+d),r`: DD CB d 11bbbzzz (R355). -/
  | setMIxR (b : BitVec 3) (r : Reg8) (d : Byte)
  /-- `SET b,(IX+d)`: DD CB d 11bbb110 (R355). -/
  | setMIx (b : BitVec 3) (d : Byte)
  /-- `ADD IY,pp`: FD 00pp1001 (R303). -/
  | addIyPp (pp : Xp)
  /-- `LD IY,nn`: FD 21 nl nh (R181). -/
  | ldIyNn (nn : Word)
  /-- `LD (nn),IY`: FD 22 nl nh (R187). -/
  | ldMNnIy (nn : Word)
  /-- `INC IY`: FD 23 (R305). -/
  | incIy
  /-- `LD IY,(nn)`: FD 2A nl nh (R184). -/
  | ldIyMNn (nn : Word)
  /-- `DEC IY`: FD 2B (R307). -/
  | decIy
  /-- `INC (IY+d)`: FD 34 d (R253). -/
  | incMIy (d : Byte)
  /-- `DEC (IY+d)`: FD 35 d (R256). -/
  | decMIy (d : Byte)
  /-- `LD (IY+d),n`: FD 36 d n (R157). -/
  | ldMIyN (d : Byte) (n : Byte)
  /-- `LD r,(IY+d)`: FD 01yyy110 d (R153). -/
  | ldRMIy (r : Reg8) (d : Byte)
  /-- `LD (IY+d),r`: FD 01110zzz d (R155). -/
  | ldMIyR (r : Reg8) (d : Byte)
  /-- `ADD A,(IY+d)`: FD 10000110 d (R243). -/
  | addAMIy (d : Byte)
  /-- `ADC A,(IY+d)`: FD 10001110 d (R244). -/
  | adcAMIy (d : Byte)
  /-- `SUB (IY+d)`: FD 10010110 d (R245). -/
  | subMIy (d : Byte)
  /-- `SBC A,(IY+d)`: FD 10011110 d (R246). -/
  | sbcAMIy (d : Byte)
  /-- `AND (IY+d)`: FD 10100110 d (R247). -/
  | andMIy (d : Byte)
  /-- `XOR (IY+d)`: FD 10101110 d (R248). -/
  | xorMIy (d : Byte)
  /-- `OR (IY+d)`: FD 10110110 d (R249). -/
  | orMIy (d : Byte)
  /-- `CP (IY+d)`: FD 10111110 d (R250). -/
  | cpMIy (d : Byte)
  /-- `prefix FDCB`: FD CB alone: the rest not fetched yet (R131). -/
  | prefixFdCb
  /-- `POP IY`: FD E1 (R193). -/
  | popIy
  /-- `EX (SP),IY`: FD E3 (R214). -/
  | exMSpIy
  /-- `PUSH IY`: FD E5 (R191). -/
  | pushIy
  /-- `JP (IY)`: FD E9 (R376). -/
  | jpIy
  /-- `LD SP,IY`: FD F9 (R189). -/
  | ldSpIy
  /-- `rot (IY+d),r`: FD CB d 00yyyzzz (R324). -/
  | rotMIyR (op : RotOp) (r : Reg8) (d : Byte)
  /-- `rot (IY+d)`: FD CB d 00yyy110 (R324). -/
  | rotMIy (op : RotOp) (d : Byte)
  /-- `BIT b,(IY+d)`: FD CB d 01bbbzzz; z tells the duplicates apart (R352). -/
  | bitMIy (b : BitVec 3) (z : BitVec 3) (d : Byte)
  /-- `RES b,(IY+d),r`: FD CB d 10bbbzzz (R358). -/
  | resMIyR (b : BitVec 3) (r : Reg8) (d : Byte)
  /-- `RES b,(IY+d)`: FD CB d 10bbb110 (R358). -/
  | resMIy (b : BitVec 3) (d : Byte)
  /-- `SET b,(IY+d),r`: FD CB d 11bbbzzz (R355). -/
  | setMIyR (b : BitVec 3) (r : Reg8) (d : Byte)
  /-- `SET b,(IY+d)`: FD CB d 11bbb110 (R355). -/
  | setMIy (b : BitVec 3) (d : Byte)
  deriving DecidableEq, Repr

end Sys2Proof
end

