-- ==== Sys2Proof/Machine/Forms.lean ====
section
/-!
DEFINITION. Which forms exist: the instructions a DD/FD prefix leaves as they are (R124(d), R130, R286), the ED opcodes
with no instruction (R283), and the terms that stand for a prefix byte.
-/

namespace Sys2Proof

/-- The register is H or L, which a DD/FD prefix replaces (R124(b)). -/
def Reg8.isHL : Reg8 → Bool
  | .h | .l => true
  | .b | .c | .d | .e | .a => false

/-- The pair is HL (R124(b)). -/
def Rp.isHL : Rp → Bool
  | .hl => true
  | .bc | .de | .sp => false

/-- The pair is HL (R124(b)). -/
def Rp2.isHL : Rp2 → Bool
  | .hl => true
  | .bc | .de | .af => false

/-- The operand is an index half (R168). -/
def HReg.isHalf : HReg → Bool
  | .xh | .xl => true
  | .b | .c | .d | .e | .a => false

/-- An unprefixed instruction whose opcode R130 does not list: DD or FD before it has no effect (R124(d), R286). -/
def Instr.unaffected : Instr → Bool
  | .nop | .ldMBcA | .rlca | .exAfAf | .ldAMBc | .rrca | .djnz _ | .ldMDeA | .rla | .jr _ | .ldAMDe | .rra
  | .jrCc _ _ | .daa | .cpl | .ldMNnA _ | .scf | .ldAMNn _ | .ccf | .halt | .retCc _ | .jpCcNn _ _ | .jpNn _
  | .callCcNn _ _ | .rst _ | .ret | .callNn _ | .outNA _ | .exx | .inAN _ | .exDeHl | .di | .ei
  | .addAN _ | .adcAN _ | .subN _ | .sbcAN _ | .andN _ | .xorN _ | .orN _ | .cpN _ => true
  | .ldDdNn dd _ => !dd.isHL
  | .incSs ss | .decSs ss => !ss.isHL
  | .popQq qq | .pushQq qq => !qq.isHL
  | .incR r | .decR r | .ldRN r _ | .addAR r | .adcAR r | .subR r | .sbcAR r | .andR r | .xorR r | .orR r
  | .cpR r => !r.isHL
  | .ldRR r r' => !r.isHL && !r'.isHL
  | .addHlSs _ | .ldMNnHl _ | .ldHlMNn _ | .incMHl | .decMHl | .ldMHlN _ | .ldRMHl _ | .ldMHlR _
  | .addAMHl | .adcAMHl | .subMHl | .sbcAMHl | .andMHl | .xorMHl | .orMHl | .cpMHl
  | .exMSpHl | .jpHl | .ldSpHl => false
  | .prefixCb | .prefixDd | .prefixEd | .prefixFd | .prefixDdCb | .prefixFdCb | .ignoredPrefix _ | .ddFd _ _ => false
  | .rlcR _ | .rrcR _ | .rlR _ | .rrR _ | .slaR _ | .sraR _ | .sllR _ | .srlR _ | .rotMHl _ | .bitR _ _ | .bitMHl _
  | .resR _ _ | .resMHl _ | .setR _ _ | .setMHl _ => false
  | .noni _ | .inRC _ | .outCR _ | .sbcHlSs _ | .ldMNnDd _ _ | .neg _ | .retn _ | .im0 _ | .ldIA | .adcHlSs _
  | .ldDdMNn _ _ | .reti | .ldRA | .im1 _ | .ldAI | .im2 _ | .ldAR | .rrd | .rld | .inC | .outC0
  | .ldi | .cpi | .ini | .outi | .ldd | .cpd | .ind | .outd | .ldir | .cpir | .inir | .otir
  | .lddr | .cpdr | .indr | .otdr => false
  | .incHalf _ _ | .decHalf _ _ | .ldHalfN _ _ _ | .ldPP _ _ _ | .addAHalf _ _ | .adcAHalf _ _ | .subHalf _ _
  | .sbcAHalf _ _ | .andHalf _ _ | .xorHalf _ _ | .orHalf _ _ | .cpHalf _ _ => false
  | .addIxPp _ | .ldIxNn _ | .ldMNnIx _ | .incIx | .ldIxMNn _ | .decIx | .incMIx _ | .decMIx _ | .ldMIxN _ _
  | .ldRMIx _ _ | .ldMIxR _ _ | .addAMIx _ | .adcAMIx _ | .subMIx _ | .sbcAMIx _ | .andMIx _ | .xorMIx _ | .orMIx _
  | .cpMIx _ | .popIx | .exMSpIx | .pushIx | .jpIx | .ldSpIx | .rotMIxR _ _ _ | .rotMIx _ _ | .bitMIx _ _ _
  | .resMIxR _ _ _ | .resMIx _ _ | .setMIxR _ _ _ | .setMIx _ _ => false
  | .addIyPp _ | .ldIyNn _ | .ldMNnIy _ | .incIy | .ldIyMNn _ | .decIy | .incMIy _ | .decMIy _ | .ldMIyN _ _
  | .ldRMIy _ _ | .ldMIyR _ _ | .addAMIy _ | .adcAMIy _ | .subMIy _ | .sbcAMIy _ | .andMIy _ | .xorMIy _ | .orMIy _
  | .cpMIy _ | .popIy | .exMSpIy | .pushIy | .jpIy | .ldSpIy | .rotMIyR _ _ _ | .rotMIy _ _ | .bitMIy _ _ _
  | .resMIyR _ _ _ | .resMIy _ _ | .setMIyR _ _ _ | .setMIy _ _ => false

/-- The ED opcodes with no instruction: 00-3F, 80-9F, A0-BF with z >= 4, C0-FF, 77 and 7F (R283). -/
def isNoni (op : Byte) : Bool :=
  op < 0x40 || (op ≥ 0x80 && op < 0xA0) || (op ≥ 0xA0 && op < 0xC0 && fieldZ op ≥ 4) || op ≥ 0xC0 ||
    op == 0x77 || op == 0x7F

end Sys2Proof
end

