-- ==== Sys2Proof/WellFormed.lean ====
section
/-!
DEFINITION. Which instruction terms stand for encodings: the checks the operand types do not already make.
-/

namespace Sys2Proof

/-- The term is an instruction of the machine. The operand types rule out everything but these: an opcode of NONI that
R129 gives an instruction, RETN with the y of RETI, LD p,p' without an index half, and a DD/FD delay form around
anything but an unaffected unprefixed instruction. -/
def Instr.wellFormed : Instr → Bool
  | .noni op => isNoni op
  | .retn y => y != 1
  | .ldPP _ p p' => p.isHalf || p'.isHalf
  | .ddFd _ op => op.unaffected
  | _ => true

/-- The term stands for a prefix byte whose instruction has not been fetched yet. -/
def Instr.isLonePrefix : Instr → Bool
  | .prefixCb | .prefixDd | .prefixEd | .prefixFd | .prefixDdCb | .prefixFdCb => true
  | _ => false

/-- The term is an ignored prefix: the byte that makes it one comes after it (R285). -/
def Instr.isIgnoredPrefix : Instr → Bool
  | .ignoredPrefix _ => true
  | _ => false

end Sys2Proof
end

