-- ==== Sys2Proof/Decode.lean ====
section
/-!
DEFINITION. The decoder, total on byte lists (R132), and after it the encoder, both from the encoding tables of
30_encoding.md.
-/

namespace Sys2Proof

/-! ### Field tables (R126) -/

/-- `r8[k]`, none for the memory operand k = 6. -/
def reg8Of (k : BitVec 3) : Option Reg8 :=
  match k with
  | 0#3 => some .b
  | 1#3 => some .c
  | 2#3 => some .d
  | 3#3 => some .e
  | 4#3 => some .h
  | 5#3 => some .l
  | 6#3 => none
  | _ => some .a

/-- `rp[k]`. -/
def rpOf (k : BitVec 2) : Rp :=
  match k with
  | 0#2 => .bc
  | 1#2 => .de
  | 2#2 => .hl
  | _ => .sp

/-- `rp2[k]`. -/
def rp2Of (k : BitVec 2) : Rp2 :=
  match k with
  | 0#2 => .bc
  | 1#2 => .de
  | 2#2 => .hl
  | _ => .af

/-- `rp[k]` under DD/FD, where k = 2 is the index register (R124, R303). -/
def xpOf (k : BitVec 2) : Xp :=
  match k with
  | 0#2 => .bc
  | 1#2 => .de
  | 2#2 => .xy
  | _ => .sp

/-- `cc[k]`. -/
def condOf (k : BitVec 3) : Cond :=
  match k with
  | 0#3 => .nz
  | 1#3 => .z
  | 2#3 => .nc
  | 3#3 => .c
  | 4#3 => .po
  | 5#3 => .pe
  | 6#3 => .p
  | _ => .m

/-- `cc[k]` of JR cc, whose y is k + 4 (R374). -/
def jrCondOf (k : BitVec 2) : JrCond :=
  match k with
  | 0#2 => .nz
  | 1#2 => .z
  | 2#2 => .nc
  | _ => .c

/-- `rot[k]`. -/
def rotOf (k : BitVec 3) : RotOp :=
  match k with
  | 0#3 => .rlc
  | 1#3 => .rrc
  | 2#3 => .rl
  | 3#3 => .rr
  | 4#3 => .sla
  | 5#3 => .sra
  | 6#3 => .sll
  | _ => .srl

/-- `r8[k]` of LD p,p' (R168), none for k = 6. -/
def hregOf (k : BitVec 3) : Option HReg :=
  match k with
  | 0#3 => some .b
  | 1#3 => some .c
  | 2#3 => some .d
  | 3#3 => some .e
  | 4#3 => some .xh
  | 5#3 => some .xl
  | 6#3 => none
  | _ => some .a

/-! ### Operand bytes (R133) -/

/-- What decoding answers: the instruction and the bytes after it. -/
abbrev Decoded := Option (Instr × List Byte)

/-- An instruction with no further byte. -/
def noOperand (i : Instr) (rest : List Byte) : Decoded := some (i, rest)

/-- An instruction with one operand byte: n, e or d. -/
def oneByte (k : Byte → Instr) : List Byte → Decoded
  | n :: rest => some (k n, rest)
  | [] => none

/-- An instruction with the word nn, low byte first. -/
def oneWord (k : Word → Instr) : List Byte → Decoded
  | nl :: nh :: rest => some (k (pair nh nl), rest)
  | _ => none

/-- An instruction with two operand bytes: d, then n. -/
def twoBytes (k : Byte → Byte → Instr) : List Byte → Decoded
  | d :: n :: rest => some (k d n, rest)
  | _ => none

/-! ### The accumulator operations, by operand form (R240) -/

/-- `alu[y] r`. -/
def aluReg (y : BitVec 3) (r : Reg8) : Instr :=
  match y with
  | 0#3 => .addAR r
  | 1#3 => .adcAR r
  | 2#3 => .subR r
  | 3#3 => .sbcAR r
  | 4#3 => .andR r
  | 5#3 => .xorR r
  | 6#3 => .orR r
  | _ => .cpR r

/-- `alu[y] (HL)`. -/
def aluMHl (y : BitVec 3) : Instr :=
  match y with
  | 0#3 => .addAMHl
  | 1#3 => .adcAMHl
  | 2#3 => .subMHl
  | 3#3 => .sbcAMHl
  | 4#3 => .andMHl
  | 5#3 => .xorMHl
  | 6#3 => .orMHl
  | _ => .cpMHl

/-- `alu[y] n`. -/
def aluImm (y : BitVec 3) (n : Byte) : Instr :=
  match y with
  | 0#3 => .addAN n
  | 1#3 => .adcAN n
  | 2#3 => .subN n
  | 3#3 => .sbcAN n
  | 4#3 => .andN n
  | 5#3 => .xorN n
  | 6#3 => .orN n
  | _ => .cpN n

/-- `alu[y]` of an index half. -/
def aluHalf (y : BitVec 3) (x : IdxReg) (h : Half) : Instr :=
  match y with
  | 0#3 => .addAHalf x h
  | 1#3 => .adcAHalf x h
  | 2#3 => .subHalf x h
  | 3#3 => .sbcAHalf x h
  | 4#3 => .andHalf x h
  | 5#3 => .xorHalf x h
  | 6#3 => .orHalf x h
  | _ => .cpHalf x h

/-- `alu[y] (IX+d)` or `alu[y] (IY+d)`. -/
def aluIdx (y : BitVec 3) (x : IdxReg) (d : Byte) : Instr :=
  match x with
  | .ix =>
    match y with
    | 0#3 => .addAMIx d
    | 1#3 => .adcAMIx d
    | 2#3 => .subMIx d
    | 3#3 => .sbcAMIx d
    | 4#3 => .andMIx d
    | 5#3 => .xorMIx d
    | 6#3 => .orMIx d
    | _ => .cpMIx d
  | .iy =>
    match y with
    | 0#3 => .addAMIy d
    | 1#3 => .adcAMIy d
    | 2#3 => .subMIy d
    | 3#3 => .sbcAMIy d
    | 4#3 => .andMIy d
    | 5#3 => .xorMIy d
    | 6#3 => .orMIy d
    | _ => .cpMIy d

/-- `rot[y] r` (R322). -/
def rotReg (y : BitVec 3) (r : Reg8) : Instr :=
  match y with
  | 0#3 => .rlcR r
  | 1#3 => .rrcR r
  | 2#3 => .rlR r
  | 3#3 => .rrR r
  | 4#3 => .slaR r
  | 5#3 => .sraR r
  | 6#3 => .sllR r
  | _ => .srlR r

/-! ### The unprefixed space (R127) -/

/-- x = 0, z = 0. -/
def decodeX0Z0 (b : Byte) (rest : List Byte) : Decoded :=
  match fieldY b with
  | 0#3 => noOperand .nop rest
  | 1#3 => noOperand .exAfAf rest
  | 2#3 => oneByte .djnz rest
  | 3#3 => oneByte .jr rest
  | _ => oneByte (.jrCc (jrCondOf (b.extractLsb' 3 2))) rest

/-- x = 0, z = 2. -/
def decodeX0Z2 (b : Byte) (rest : List Byte) : Decoded :=
  match fieldY b with
  | 0#3 => noOperand .ldMBcA rest
  | 1#3 => noOperand .ldAMBc rest
  | 2#3 => noOperand .ldMDeA rest
  | 3#3 => noOperand .ldAMDe rest
  | 4#3 => oneWord .ldMNnHl rest
  | 5#3 => oneWord .ldHlMNn rest
  | 6#3 => oneWord .ldMNnA rest
  | _ => oneWord .ldAMNn rest

/-- x = 0, z = 7. -/
def decodeX0Z7 (b : Byte) : Instr :=
  match fieldY b with
  | 0#3 => .rlca
  | 1#3 => .rrca
  | 2#3 => .rla
  | 3#3 => .rra
  | 4#3 => .daa
  | 5#3 => .cpl
  | 6#3 => .scf
  | _ => .ccf

/-- x = 0. -/
def decodeX0 (b : Byte) (rest : List Byte) : Decoded :=
  match fieldZ b with
  | 0#3 => decodeX0Z0 b rest
  | 1#3 => if fieldQ b then noOperand (.addHlSs (rpOf (fieldP b))) rest else oneWord (.ldDdNn (rpOf (fieldP b))) rest
  | 2#3 => decodeX0Z2 b rest
  | 3#3 => noOperand (if fieldQ b then .decSs (rpOf (fieldP b)) else .incSs (rpOf (fieldP b))) rest
  | 4#3 => noOperand (match reg8Of (fieldY b) with | some r => .incR r | none => .incMHl) rest
  | 5#3 => noOperand (match reg8Of (fieldY b) with | some r => .decR r | none => .decMHl) rest
  | 6#3 => oneByte (match reg8Of (fieldY b) with | some r => .ldRN r | none => .ldMHlN) rest
  | _ => noOperand (decodeX0Z7 b) rest

/-- x = 1: LD r,r' and HALT. -/
def decodeX1 (b : Byte) : Instr :=
  match reg8Of (fieldY b), reg8Of (fieldZ b) with
  | some r, some r' => .ldRR r r'
  | some r, none => .ldRMHl r
  | none, some r' => .ldMHlR r'
  | none, none => .halt

/-- x = 2: alu[y] r8[z]. -/
def decodeX2 (b : Byte) : Instr :=
  match reg8Of (fieldZ b) with
  | some r => aluReg (fieldY b) r
  | none => aluMHl (fieldY b)

/-- x = 3, z = 1. -/
def decodeX3Z1 (b : Byte) : Instr :=
  if fieldQ b then
    match fieldP b with
    | 0#2 => .ret
    | 1#2 => .exx
    | 2#2 => .jpHl
    | _ => .ldSpHl
  else .popQq (rp2Of (fieldP b))

/-- x = 3, z = 3; CB is a prefix and not read here. -/
def decodeX3Z3 (b : Byte) (rest : List Byte) : Decoded :=
  match fieldY b with
  | 0#3 => oneWord .jpNn rest
  | 1#3 => none
  | 2#3 => oneByte .outNA rest
  | 3#3 => oneByte .inAN rest
  | 4#3 => noOperand .exMSpHl rest
  | 5#3 => noOperand .exDeHl rest
  | 6#3 => noOperand .di rest
  | _ => noOperand .ei rest

/-- x = 3, z = 5; DD, ED and FD are prefixes and not read here. -/
def decodeX3Z5 (b : Byte) (rest : List Byte) : Decoded :=
  if fieldQ b then
    match fieldP b with
    | 0#2 => oneWord .callNn rest
    | _ => none
  else noOperand (.pushQq (rp2Of (fieldP b))) rest

/-- x = 3. -/
def decodeX3 (b : Byte) (rest : List Byte) : Decoded :=
  match fieldZ b with
  | 0#3 => noOperand (.retCc (condOf (fieldY b))) rest
  | 1#3 => noOperand (decodeX3Z1 b) rest
  | 2#3 => oneWord (.jpCcNn (condOf (fieldY b))) rest
  | 3#3 => decodeX3Z3 b rest
  | 4#3 => oneWord (.callCcNn (condOf (fieldY b))) rest
  | 5#3 => decodeX3Z5 b rest
  | 6#3 => oneByte (aluImm (fieldY b)) rest
  | _ => noOperand (.rst (fieldY b)) rest

/-- The unprefixed map (R127), for an opcode that is no prefix. -/
def decodeUnprefixed (b : Byte) (rest : List Byte) : Decoded :=
  match fieldX b with
  | 0#2 => decodeX0 b rest
  | 1#2 => noOperand (decodeX1 b) rest
  | 2#2 => noOperand (decodeX2 b) rest
  | _ => decodeX3 b rest

/-! ### The CB space (R128) -/

/-- The CB map. -/
def decodeCb (b : Byte) : Instr :=
  match fieldX b, reg8Of (fieldZ b) with
  | 0#2, some r => rotReg (fieldY b) r
  | 0#2, none => .rotMHl (rotOf (fieldY b))
  | 1#2, some r => .bitR (fieldY b) r
  | 1#2, none => .bitMHl (fieldY b)
  | 2#2, some r => .resR (fieldY b) r
  | 2#2, none => .resMHl (fieldY b)
  | _, some r => .setR (fieldY b) r
  | _, none => .setMHl (fieldY b)

/-! ### The ED space (R129) -/

/-- x = 1, z = 6: IM im[y]. -/
def decodeIm (y : BitVec 3) : Instr :=
  match y with
  | 0#3 => .im0 0
  | 1#3 => .im0 1
  | 4#3 => .im0 2
  | 5#3 => .im0 3
  | 2#3 => .im1 0
  | 6#3 => .im1 1
  | 3#3 => .im2 0
  | _ => .im2 1

/-- x = 1, z = 7. -/
def decodeEdZ7 (b : Byte) : Instr :=
  match fieldY b with
  | 0#3 => .ldIA
  | 1#3 => .ldRA
  | 2#3 => .ldAI
  | 3#3 => .ldAR
  | 4#3 => .rrd
  | 5#3 => .rld
  | _ => .noni b

/-- x = 1. -/
def decodeEdX1 (b : Byte) (rest : List Byte) : Decoded :=
  match fieldZ b with
  | 0#3 => noOperand (match reg8Of (fieldY b) with | some r => .inRC r | none => .inC) rest
  | 1#3 => noOperand (match reg8Of (fieldY b) with | some r => .outCR r | none => .outC0) rest
  | 2#3 => noOperand (if fieldQ b then .adcHlSs (rpOf (fieldP b)) else .sbcHlSs (rpOf (fieldP b))) rest
  | 3#3 => oneWord (if fieldQ b then .ldDdMNn (rpOf (fieldP b)) else .ldMNnDd (rpOf (fieldP b))) rest
  | 4#3 => noOperand (.neg (fieldY b)) rest
  | 5#3 => noOperand (if fieldY b = 1 then .reti else .retn (fieldY b)) rest
  | 6#3 => noOperand (decodeIm (fieldY b)) rest
  | _ => noOperand (decodeEdZ7 b) rest

/-- The block table bli[y][z] for y = 4..7 (R126), other z being NONI. -/
def decodeBlock (b : Byte) : Instr :=
  match fieldY b, fieldZ b with
  | 4#3, 0#3 => .ldi
  | 4#3, 1#3 => .cpi
  | 4#3, 2#3 => .ini
  | 4#3, 3#3 => .outi
  | 5#3, 0#3 => .ldd
  | 5#3, 1#3 => .cpd
  | 5#3, 2#3 => .ind
  | 5#3, 3#3 => .outd
  | 6#3, 0#3 => .ldir
  | 6#3, 1#3 => .cpir
  | 6#3, 2#3 => .inir
  | 6#3, 3#3 => .otir
  | 7#3, 0#3 => .lddr
  | 7#3, 1#3 => .cpdr
  | 7#3, 2#3 => .indr
  | 7#3, 3#3 => .otdr
  | _, _ => .noni b

/-- The ED map. -/
def decodeEd (b : Byte) (rest : List Byte) : Decoded :=
  match fieldX b with
  | 1#2 => decodeEdX1 b rest
  | 2#2 => noOperand (decodeBlock b) rest
  | _ => noOperand (.noni b) rest

/-! ### The DD and FD spaces (R124, R130) -/

/-- The affected opcodes of R130, less the prefixes CB, DD, ED and FD. -/
def isAffected (b : Byte) : Bool :=
  [0x09, 0x19, 0x29, 0x39, 0x21, 0x22, 0x2A, 0x23, 0x2B, 0xE1, 0xE5, 0xE3, 0xE9, 0xF9,
   0x24, 0x25, 0x26, 0x2C, 0x2D, 0x2E, 0x34, 0x35, 0x36,
   0x46, 0x4E, 0x56, 0x5E, 0x66, 0x6E, 0x7E, 0x70, 0x71, 0x72, 0x73, 0x74, 0x75, 0x77,
   0x44, 0x45, 0x4C, 0x4D, 0x54, 0x55, 0x5C, 0x5D, 0x7C, 0x7D,
   0x60, 0x61, 0x62, 0x63, 0x64, 0x65, 0x67, 0x68, 0x69, 0x6A, 0x6B, 0x6C, 0x6D, 0x6F,
   0x84, 0x85, 0x86, 0x8C, 0x8D, 0x8E, 0x94, 0x95, 0x96, 0x9C, 0x9D, 0x9E,
   0xA4, 0xA5, 0xA6, 0xAC, 0xAD, 0xAE, 0xB4, 0xB5, 0xB6, 0xBC, 0xBD, 0xBE].contains b

/-- The IX form under DD, the IY form under FD. -/
def byIdx {α : Type} (x : IdxReg) (ix iy : α) : α :=
  match x with
  | .ix => ix
  | .iy => iy

/-- The half h = 0 is xyH, h = 1 is xyL (R240). -/
def halfOf (h : Bool) : Half := if h then .lo else .hi

/-- x = 0 of the affected opcodes. -/
def decodeIdxX0 (x : IdxReg) (b : Byte) (rest : List Byte) : Decoded :=
  match fieldZ b with
  | 1#3 =>
    if fieldQ b then noOperand (byIdx x (.addIxPp (xpOf (fieldP b))) (.addIyPp (xpOf (fieldP b)))) rest
    else oneWord (byIdx x .ldIxNn .ldIyNn) rest
  | 2#3 => oneWord (if fieldQ b then byIdx x .ldIxMNn .ldIyMNn else byIdx x .ldMNnIx .ldMNnIy) rest
  | 3#3 => noOperand (if fieldQ b then byIdx x .decIx .decIy else byIdx x .incIx .incIy) rest
  | 4#3 => if fieldY b = 6 then oneByte (byIdx x .incMIx .incMIy) rest
    else noOperand (.incHalf x (halfOf (fieldQ b))) rest
  | 5#3 => if fieldY b = 6 then oneByte (byIdx x .decMIx .decMIy) rest
    else noOperand (.decHalf x (halfOf (fieldQ b))) rest
  | _ => if fieldY b = 6 then twoBytes (byIdx x .ldMIxN .ldMIyN) rest
    else oneByte (.ldHalfN x (halfOf (fieldQ b))) rest

/-- x = 1 of the affected opcodes: (xy+d) forms keep the real H and L, the others use the halves (R124). -/
def decodeIdxX1 (x : IdxReg) (b : Byte) (rest : List Byte) : Decoded :=
  match reg8Of (fieldY b), reg8Of (fieldZ b) with
  | some r, none => oneByte (byIdx x (.ldRMIx r) (.ldRMIy r)) rest
  | none, some r' => oneByte (byIdx x (.ldMIxR r') (.ldMIyR r')) rest
  | _, _ =>
    match hregOf (fieldY b), hregOf (fieldZ b) with
    | some p, some p' => noOperand (.ldPP x p p') rest
    | _, _ => none

/-- x = 2 of the affected opcodes. -/
def decodeIdxX2 (x : IdxReg) (b : Byte) (rest : List Byte) : Decoded :=
  if fieldZ b = 6 then oneByte (aluIdx (fieldY b) x) rest
  else noOperand (aluHalf (fieldY b) x (halfOf (b.getLsbD 0))) rest

/-- x = 3 of the affected opcodes. -/
def decodeIdxX3 (x : IdxReg) (b : Byte) (rest : List Byte) : Decoded :=
  match fieldY b, fieldZ b with
  | 4#3, 1#3 => noOperand (byIdx x .popIx .popIy) rest
  | 4#3, 3#3 => noOperand (byIdx x .exMSpIx .exMSpIy) rest
  | 4#3, 5#3 => noOperand (byIdx x .pushIx .pushIy) rest
  | 5#3, 1#3 => noOperand (byIdx x .jpIx .jpIy) rest
  | _, _ => noOperand (byIdx x .ldSpIx .ldSpIy) rest

/-- An affected opcode's substituted form (R130). -/
def decodeAffected (x : IdxReg) (b : Byte) (rest : List Byte) : Decoded :=
  match fieldX b with
  | 0#2 => decodeIdxX0 x b rest
  | 1#2 => decodeIdxX1 x b rest
  | 2#2 => decodeIdxX2 x b rest
  | _ => decodeIdxX3 x b rest

/-- The DDCB and FDCB maps (R131), displacement before opcode (R125). -/
def decodeIdxCb (x : IdxReg) (d b : Byte) : Instr :=
  match fieldX b, reg8Of (fieldZ b) with
  | 0#2, some r => byIdx x (.rotMIxR (rotOf (fieldY b)) r d) (.rotMIyR (rotOf (fieldY b)) r d)
  | 0#2, none => byIdx x (.rotMIx (rotOf (fieldY b)) d) (.rotMIy (rotOf (fieldY b)) d)
  | 1#2, _ => byIdx x (.bitMIx (fieldY b) (fieldZ b) d) (.bitMIy (fieldY b) (fieldZ b) d)
  | 2#2, some r => byIdx x (.resMIxR (fieldY b) r d) (.resMIyR (fieldY b) r d)
  | 2#2, none => byIdx x (.resMIx (fieldY b) d) (.resMIy (fieldY b) d)
  | _, some r => byIdx x (.setMIxR (fieldY b) r d) (.setMIyR (fieldY b) r d)
  | _, none => byIdx x (.setMIx (fieldY b) d) (.setMIy (fieldY b) d)

/-- DD, ED or FD: after DD or FD it makes that prefix an ignored one (R285). -/
def cancelsPrefix (b : Byte) : Bool := b == 0xDD || b == 0xED || b == 0xFD

/-- What follows a DD or FD byte (R132). With no byte after it the prefix stands alone. -/
def decodeIdx (x : IdxReg) : List Byte → Decoded
  | [] => some (byIdx x .prefixDd .prefixFd, [])
  | b :: rest =>
    if cancelsPrefix b then some (.ignoredPrefix x, b :: rest)
    else if b = 0xCB then
      match rest with
      | [] => some (byIdx x .prefixDdCb .prefixFdCb, [])
      | [_] => none
      | d :: op :: rest' => some (decodeIdxCb x d op, rest')
    else if isAffected b then decodeAffected x b rest
    else (decodeUnprefixed b rest).map fun p => (.ddFd x p.1, p.2)

/-- The decoder (R132): the first instruction of a byte list and the bytes after it; none when the list ends inside it.
A list that ends right after a prefix is that prefix, its instruction not fetched yet. -/
def decode : List Byte → Decoded
  | [] => none
  | b :: rest =>
    if b = 0xCB then
      match rest with
      | [] => some (.prefixCb, [])
      | op :: rest' => some (decodeCb op, rest')
    else if b = 0xED then
      match rest with
      | [] => some (.prefixEd, [])
      | op :: rest' => decodeEd op rest'
    else if b = 0xDD then decodeIdx .ix rest
    else if b = 0xFD then decodeIdx .iy rest
    else decodeUnprefixed b rest

/-! ### The encoder -/

/-- The field value of a register (R126). -/
def Reg8.code : Reg8 → BitVec 3
  | .b => 0
  | .c => 1
  | .d => 2
  | .e => 3
  | .h => 4
  | .l => 5
  | .a => 7

/-- The field value of an operand of LD p,p' (R168). -/
def HReg.code : HReg → BitVec 3
  | .b => 0
  | .c => 1
  | .d => 2
  | .e => 3
  | .xh => 4
  | .xl => 5
  | .a => 7

/-- The field value of a pair (R126). -/
def Rp.code : Rp → BitVec 2
  | .bc => 0
  | .de => 1
  | .hl => 2
  | .sp => 3

/-- The field value of a PUSH/POP pair (R126). -/
def Rp2.code : Rp2 → BitVec 2
  | .bc => 0
  | .de => 1
  | .hl => 2
  | .af => 3

/-- The field value of a pair of ADD xy,pp (R303). -/
def Xp.code : Xp → BitVec 2
  | .bc => 0
  | .de => 1
  | .xy => 2
  | .sp => 3

/-- The field value of a condition (R42). -/
def Cond.code : Cond → BitVec 3
  | .nz => 0
  | .z => 1
  | .nc => 2
  | .c => 3
  | .po => 4
  | .pe => 5
  | .p => 6
  | .m => 7

/-- The field y of JR cc: 4 to 7 (R374). -/
def JrCond.code : JrCond → BitVec 3
  | .nz => 4
  | .z => 5
  | .nc => 6
  | .c => 7

/-- The field value of a rotate or shift (R126). -/
def RotOp.code : RotOp → BitVec 3
  | .rlc => 0
  | .rrc => 1
  | .rl => 2
  | .rr => 3
  | .sla => 4
  | .sra => 5
  | .sll => 6
  | .srl => 7

/-- The field value of an index half: 4 for xyH, 5 for xyL (R124). -/
def Half.code : Half → BitVec 3
  | .hi => 4
  | .lo => 5

/-- The prefix byte of an index register (R124). -/
def IdxReg.prefixByte : IdxReg → Byte
  | .ix => 0xDD
  | .iy => 0xFD

/-- DD or FD, an opcode byte, then operand bytes. -/
def idxForm (x : IdxReg) (op : Byte) (operands : List Byte) : List Byte := x.prefixByte :: op :: operands

/-- DD or FD, CB, the displacement, the opcode byte (R125). -/
def idxCbForm (x : IdxReg) (d op : Byte) : List Byte := [x.prefixByte, 0xCB, d, op]

/-- A word as its two bytes, low first (R84). -/
def wordBytes (nn : Word) : List Byte := [loByte nn, hiByte nn]

/-- The bytes of an instruction (R121, R127 to R131). -/
def encode : Instr → List Byte
  | .nop => [0x00]
  | .ldDdNn dd nn => opXPQZ 0 dd.code false 1 :: wordBytes nn
  | .ldMBcA => [0x02]
  | .incSs ss => [opXPQZ 0 ss.code false 3]
  | .incR r => [opXYZ 0 r.code 4]
  | .decR r => [opXYZ 0 r.code 5]
  | .ldRN r n => [opXYZ 0 r.code 6, n]
  | .rlca => [0x07]
  | .exAfAf => [0x08]
  | .addHlSs ss => [opXPQZ 0 ss.code true 1]
  | .ldAMBc => [0x0A]
  | .decSs ss => [opXPQZ 0 ss.code true 3]
  | .rrca => [0x0F]
  | .djnz e => [0x10, e]
  | .ldMDeA => [0x12]
  | .rla => [0x17]
  | .jr e => [0x18, e]
  | .ldAMDe => [0x1A]
  | .rra => [0x1F]
  | .jrCc cc e => [opXYZ 0 cc.code 0, e]
  | .ldMNnHl nn => 0x22 :: wordBytes nn
  | .daa => [0x27]
  | .ldHlMNn nn => 0x2A :: wordBytes nn
  | .cpl => [0x2F]
  | .ldMNnA nn => 0x32 :: wordBytes nn
  | .incMHl => [0x34]
  | .decMHl => [0x35]
  | .ldMHlN n => [0x36, n]
  | .scf => [0x37]
  | .ldAMNn nn => 0x3A :: wordBytes nn
  | .ccf => [0x3F]
  | .ldRR r r' => [opXYZ 1 r.code r'.code]
  | .ldRMHl r => [opXYZ 1 r.code 6]
  | .ldMHlR r => [opXYZ 1 6 r.code]
  | .halt => [0x76]
  | .addAR r => [opXYZ 2 0 r.code]
  | .addAMHl => [0x86]
  | .adcAR r => [opXYZ 2 1 r.code]
  | .adcAMHl => [0x8E]
  | .subR r => [opXYZ 2 2 r.code]
  | .subMHl => [0x96]
  | .sbcAR r => [opXYZ 2 3 r.code]
  | .sbcAMHl => [0x9E]
  | .andR r => [opXYZ 2 4 r.code]
  | .andMHl => [0xA6]
  | .xorR r => [opXYZ 2 5 r.code]
  | .xorMHl => [0xAE]
  | .orR r => [opXYZ 2 6 r.code]
  | .orMHl => [0xB6]
  | .cpR r => [opXYZ 2 7 r.code]
  | .cpMHl => [0xBE]
  | .retCc cc => [opXYZ 3 cc.code 0]
  | .popQq qq => [opXPQZ 3 qq.code false 1]
  | .jpCcNn cc nn => opXYZ 3 cc.code 2 :: wordBytes nn
  | .jpNn nn => 0xC3 :: wordBytes nn
  | .callCcNn cc nn => opXYZ 3 cc.code 4 :: wordBytes nn
  | .pushQq qq => [opXPQZ 3 qq.code false 5]
  | .rst y => [opXYZ 3 y 7]
  | .ret => [0xC9]
  | .callNn nn => 0xCD :: wordBytes nn
  | .outNA n => [0xD3, n]
  | .exx => [0xD9]
  | .inAN n => [0xDB, n]
  | .exMSpHl => [0xE3]
  | .jpHl => [0xE9]
  | .exDeHl => [0xEB]
  | .di => [0xF3]
  | .ldSpHl => [0xF9]
  | .ei => [0xFB]
  | .addAN n => [0xC6, n]
  | .adcAN n => [0xCE, n]
  | .subN n => [0xD6, n]
  | .sbcAN n => [0xDE, n]
  | .andN n => [0xE6, n]
  | .xorN n => [0xEE, n]
  | .orN n => [0xF6, n]
  | .cpN n => [0xFE, n]
  | .prefixCb => [0xCB]
  | .prefixDd => [0xDD]
  | .prefixEd => [0xED]
  | .prefixFd => [0xFD]
  | .rlcR r => [0xCB, opXYZ 0 0 r.code]
  | .rrcR r => [0xCB, opXYZ 0 1 r.code]
  | .rlR r => [0xCB, opXYZ 0 2 r.code]
  | .rrR r => [0xCB, opXYZ 0 3 r.code]
  | .slaR r => [0xCB, opXYZ 0 4 r.code]
  | .sraR r => [0xCB, opXYZ 0 5 r.code]
  | .sllR r => [0xCB, opXYZ 0 6 r.code]
  | .srlR r => [0xCB, opXYZ 0 7 r.code]
  | .rotMHl op => [0xCB, opXYZ 0 op.code 6]
  | .bitR b r => [0xCB, opXYZ 1 b r.code]
  | .bitMHl b => [0xCB, opXYZ 1 b 6]
  | .resR b r => [0xCB, opXYZ 2 b r.code]
  | .resMHl b => [0xCB, opXYZ 2 b 6]
  | .setR b r => [0xCB, opXYZ 3 b r.code]
  | .setMHl b => [0xCB, opXYZ 3 b 6]
  | .noni op => [0xED, op]
  | .inRC r => [0xED, opXYZ 1 r.code 0]
  | .outCR r => [0xED, opXYZ 1 r.code 1]
  | .sbcHlSs ss => [0xED, opXPQZ 1 ss.code false 2]
  | .ldMNnDd dd nn => 0xED :: opXPQZ 1 dd.code false 3 :: wordBytes nn
  | .neg y => [0xED, opXYZ 1 y 4]
  | .retn y => [0xED, opXYZ 1 y 5]
  | .im0 k => [0xED, opXYZ 1 (k.extractLsb' 1 1 ++ 0#1 ++ k.extractLsb' 0 1) 6]
  | .ldIA => [0xED, 0x47]
  | .adcHlSs ss => [0xED, opXPQZ 1 ss.code true 2]
  | .ldDdMNn dd nn => 0xED :: opXPQZ 1 dd.code true 3 :: wordBytes nn
  | .reti => [0xED, 0x4D]
  | .ldRA => [0xED, 0x4F]
  | .im1 k => [0xED, opXYZ 1 (k ++ 2#2) 6]
  | .ldAI => [0xED, 0x57]
  | .im2 k => [0xED, opXYZ 1 (k ++ 3#2) 6]
  | .ldAR => [0xED, 0x5F]
  | .rrd => [0xED, 0x67]
  | .rld => [0xED, 0x6F]
  | .inC => [0xED, 0x70]
  | .outC0 => [0xED, 0x71]
  | .ldi => [0xED, 0xA0]
  | .cpi => [0xED, 0xA1]
  | .ini => [0xED, 0xA2]
  | .outi => [0xED, 0xA3]
  | .ldd => [0xED, 0xA8]
  | .cpd => [0xED, 0xA9]
  | .ind => [0xED, 0xAA]
  | .outd => [0xED, 0xAB]
  | .ldir => [0xED, 0xB0]
  | .cpir => [0xED, 0xB1]
  | .inir => [0xED, 0xB2]
  | .otir => [0xED, 0xB3]
  | .lddr => [0xED, 0xB8]
  | .cpdr => [0xED, 0xB9]
  | .indr => [0xED, 0xBA]
  | .otdr => [0xED, 0xBB]
  | .ddFd x op => x.prefixByte :: encode op
  | .ignoredPrefix x => [x.prefixByte]
  | .incHalf x h => idxForm x (opXYZ 0 h.code 4) []
  | .decHalf x h => idxForm x (opXYZ 0 h.code 5) []
  | .ldHalfN x h n => idxForm x (opXYZ 0 h.code 6) [n]
  | .ldPP x p p' => idxForm x (opXYZ 1 p.code p'.code) []
  | .addAHalf x h => idxForm x (opXYZ 2 0 h.code) []
  | .adcAHalf x h => idxForm x (opXYZ 2 1 h.code) []
  | .subHalf x h => idxForm x (opXYZ 2 2 h.code) []
  | .sbcAHalf x h => idxForm x (opXYZ 2 3 h.code) []
  | .andHalf x h => idxForm x (opXYZ 2 4 h.code) []
  | .xorHalf x h => idxForm x (opXYZ 2 5 h.code) []
  | .orHalf x h => idxForm x (opXYZ 2 6 h.code) []
  | .cpHalf x h => idxForm x (opXYZ 2 7 h.code) []
  | .addIxPp pp => idxForm .ix (opXPQZ 0 pp.code true 1) []
  | .ldIxNn nn => idxForm .ix 0x21 (wordBytes nn)
  | .ldMNnIx nn => idxForm .ix 0x22 (wordBytes nn)
  | .incIx => idxForm .ix 0x23 []
  | .ldIxMNn nn => idxForm .ix 0x2A (wordBytes nn)
  | .decIx => idxForm .ix 0x2B []
  | .incMIx d => idxForm .ix 0x34 [d]
  | .decMIx d => idxForm .ix 0x35 [d]
  | .ldMIxN d n => idxForm .ix 0x36 [d, n]
  | .ldRMIx r d => idxForm .ix (opXYZ 1 r.code 6) [d]
  | .ldMIxR r d => idxForm .ix (opXYZ 1 6 r.code) [d]
  | .addAMIx d => idxForm .ix 0x86 [d]
  | .adcAMIx d => idxForm .ix 0x8E [d]
  | .subMIx d => idxForm .ix 0x96 [d]
  | .sbcAMIx d => idxForm .ix 0x9E [d]
  | .andMIx d => idxForm .ix 0xA6 [d]
  | .xorMIx d => idxForm .ix 0xAE [d]
  | .orMIx d => idxForm .ix 0xB6 [d]
  | .cpMIx d => idxForm .ix 0xBE [d]
  | .prefixDdCb => [0xDD, 0xCB]
  | .popIx => idxForm .ix 0xE1 []
  | .exMSpIx => idxForm .ix 0xE3 []
  | .pushIx => idxForm .ix 0xE5 []
  | .jpIx => idxForm .ix 0xE9 []
  | .ldSpIx => idxForm .ix 0xF9 []
  | .rotMIxR op r d => idxCbForm .ix d (opXYZ 0 op.code r.code)
  | .rotMIx op d => idxCbForm .ix d (opXYZ 0 op.code 6)
  | .bitMIx b z d => idxCbForm .ix d (opXYZ 1 b z)
  | .resMIxR b r d => idxCbForm .ix d (opXYZ 2 b r.code)
  | .resMIx b d => idxCbForm .ix d (opXYZ 2 b 6)
  | .setMIxR b r d => idxCbForm .ix d (opXYZ 3 b r.code)
  | .setMIx b d => idxCbForm .ix d (opXYZ 3 b 6)
  | .addIyPp pp => idxForm .iy (opXPQZ 0 pp.code true 1) []
  | .ldIyNn nn => idxForm .iy 0x21 (wordBytes nn)
  | .ldMNnIy nn => idxForm .iy 0x22 (wordBytes nn)
  | .incIy => idxForm .iy 0x23 []
  | .ldIyMNn nn => idxForm .iy 0x2A (wordBytes nn)
  | .decIy => idxForm .iy 0x2B []
  | .incMIy d => idxForm .iy 0x34 [d]
  | .decMIy d => idxForm .iy 0x35 [d]
  | .ldMIyN d n => idxForm .iy 0x36 [d, n]
  | .ldRMIy r d => idxForm .iy (opXYZ 1 r.code 6) [d]
  | .ldMIyR r d => idxForm .iy (opXYZ 1 6 r.code) [d]
  | .addAMIy d => idxForm .iy 0x86 [d]
  | .adcAMIy d => idxForm .iy 0x8E [d]
  | .subMIy d => idxForm .iy 0x96 [d]
  | .sbcAMIy d => idxForm .iy 0x9E [d]
  | .andMIy d => idxForm .iy 0xA6 [d]
  | .xorMIy d => idxForm .iy 0xAE [d]
  | .orMIy d => idxForm .iy 0xB6 [d]
  | .cpMIy d => idxForm .iy 0xBE [d]
  | .prefixFdCb => [0xFD, 0xCB]
  | .popIy => idxForm .iy 0xE1 []
  | .exMSpIy => idxForm .iy 0xE3 []
  | .pushIy => idxForm .iy 0xE5 []
  | .jpIy => idxForm .iy 0xE9 []
  | .ldSpIy => idxForm .iy 0xF9 []
  | .rotMIyR op r d => idxCbForm .iy d (opXYZ 0 op.code r.code)
  | .rotMIy op d => idxCbForm .iy d (opXYZ 0 op.code 6)
  | .bitMIy b z d => idxCbForm .iy d (opXYZ 1 b z)
  | .resMIyR b r d => idxCbForm .iy d (opXYZ 2 b r.code)
  | .resMIy b d => idxCbForm .iy d (opXYZ 2 b 6)
  | .setMIyR b r d => idxCbForm .iy d (opXYZ 3 b r.code)
  | .setMIy b d => idxCbForm .iy d (opXYZ 3 b 6)

/-- The words of an instruction as spec/opcode_table.json numbers them are its first `nbits` bits, the first byte in the
most significant place (R122; a row's match `0xCB00` is the bytes CB 00). Where the top byte of a longer word is no
prefix, the bytes are taken the other way round, first byte least significant: no row of the table reads so
(log entry 12). -/
def tableBytes (nbits w : Nat) : List Byte :=
  let n := (nbits + 7) / 8
  let low := (List.range n).map fun k => BitVec.ofNat 8 (w >>> (8 * k))
  match low.reverse with
  | b :: rest => if rest ≠ [] && !(cancelsPrefix b || b == 0xCB) then low else b :: rest
  | [] => []

/-- The instruction the decoder reads from a table row's bits, the operand bytes the row gives no bits being 0. -/
def decodeTableWord (nbits w : Nat) : Option Instr :=
  match decode (tableBytes nbits w) with
  | some p => some p.1
  | none => (decode (tableBytes nbits w ++ [0, 0, 0])).map Prod.fst

end Sys2Proof
end

