-- ==== Sys2Proof/Machine/Fetch.lean ====
section
/-!
DEFINITION. Fetching an instruction (R16, R132): the M1 cycles, the look-ahead of an ignored prefix, the operand bytes, and
the TR-DOS hook before each opcode fetch (R98).
-/

namespace Sys2Proof.Machine

/-- The number a part of a module holds, a flag being 0 or 1 (R60). -/
def HookField.value (c : Module) : HookField → Nat
  | .a => c.a.toNat
  | .f => c.f.toNat
  | .b => c.b.toNat
  | .c => c.c.toNat
  | .d => c.d.toNat
  | .e => c.e.toNat
  | .h => c.h.toNat
  | .l => c.l.toNat
  | .a' => c.a'.toNat
  | .f' => c.f'.toNat
  | .b' => c.b'.toNat
  | .c' => c.c'.toNat
  | .d' => c.d'.toNat
  | .e' => c.e'.toNat
  | .h' => c.h'.toNat
  | .l' => c.l'.toNat
  | .ix => c.ix.toNat
  | .iy => c.iy.toNat
  | .sp => c.sp.toNat
  | .pc => c.pc.toNat
  | .i => c.i.toNat
  | .r => c.r.toNat
  | .iff1 => c.iff1.toNat
  | .iff2 => c.iff2.toNat
  | .im => match c.im with
    | .im0 => 0
    | .im1 => 1
    | .im2 => 2
  | .halted => c.halted.toNat
  | .memptr => c.memptr.toNat
  | .q => c.q.toNat
  | .eiDelay => c.eiDelay.toNat
  | .prefixBlock => c.prefixBlock.toNat
  | .nmiPending => c.nmiPending.toNat
  | .nmiPrev => c.nmiPrev.toNat
  | .ldair => c.ldair.toNat
  | .retiSeen => c.retiSeen.toNat
  | .port7FFD => c.port7FFD.toNat
  | .trdos => c.trdos.toNat
  | .t => c.t

/-- The bit a hook looks at, for module `m` in state `c` about to fetch at `pc`. -/
def HookBit.value (m : ModuleId) (c : Module) (pc : Word) : HookBit → Bool
  | .address k => pc.getLsbD k.val
  | .index m' => m == m'
  | .part field k => (HookField.value c field).testBit k

/-- The TR-DOS flag a hook gives module `m` in state `c` about to fetch at `pc` (R98). -/
def HookTree.value (m : ModuleId) (c : Module) (pc : Word) : HookTree → Bool
  | .flag on => on
  | .keep => c.trdos
  | .test bit x y => if HookBit.value m c pc bit then HookTree.value m c pc x else HookTree.value m c pc y

/-- `P_TRDOS_HOOK`, evaluated before an opcode fetch with the module's state and the fetch address (R98, log entry 8). -/
def State.hooked (s : State) : State :=
  match s.cfg.trdosHook with
  | .identity => s
  | .given tree => s.mapCore fun c => { c with trdos := HookTree.value s.cur c c.pc tree }
  | .free => (s.mapCore fun c => { c with trdos := Config.freeBit s.draws }).drew 1

/-- What `FetchOpcode()` leaves: the hook's flag, PC + 1, R counted (R16, R98). -/
def State.afterOpcode (s : State) : State :=
  s.hooked.mapCore fun c => { c with pc := c.pc + 1, r := refresh c.r }

/-- The byte `FetchOpcode()` returns (R16). -/
def State.opcodeByte (s : State) : Byte := s.hooked.readByte s.core.pc

/-- The next `n` bytes at PC, read without a fetch. -/
def State.bytesAtPc (s : State) : Nat → List Byte
  | 0 => []
  | n + 1 => s.bytesAtPc n ++ [s.readByte (s.core.pc + BitVec.ofNat 16 n)]

/-- The operand bytes of the opcode bytes `pre`, already fetched: `FetchByte()` for each (R16, R132). No instruction has
more than two. Where `pre` is DD or FD with DD, ED or FD after it, which only a changing TR-DOS flag brings, `decode` reads an
ignored prefix and the second byte stays taken (DESIGN CHOICE, log entry 24). -/
def State.fetchOperands (s : State) (pre : List Byte) : Option (Instr × State) :=
  match decode (pre ++ s.bytesAtPc 2) with
  | some (i, rest) => some (i, s.mapCore fun c => { c with pc := c.pc + BitVec.ofNat 16 (2 - rest.length) })
  | none => none

/-- A second opcode byte is fetched: after CB and ED always, after DD and FD unless the byte the look-ahead reads makes the
prefix an ignored one (R132). -/
def fetchesSecond (b0 ahead : Byte) : Bool :=
  b0 == 0xCB || b0 == 0xED || ((b0 == 0xDD || b0 == 0xFD) && !cancelsPrefix ahead)

/-- The rest of an instruction whose first opcode byte `b0` has been fetched (R132). The look-ahead is a memory read with
no side effect. An ignored prefix has nothing more to fetch.

DESIGN CHOICE, log entry 24: a hook that changes the TR-DOS flag may do so between the look-ahead and the second opcode fetch, so
that the byte fetched after DD or FD is DD, ED or FD although the byte looked at was not. R132 and R285 give that pair of bytes no
execution. It is an ignored prefix here that has taken both bytes: PC + 2, R + 2, 4 T-states, `prefix_block` set. -/
def State.fetchAfter (s : State) (b0 : Byte) : Option (Instr × State) :=
  if fetchesSecond b0 (s.readByte s.core.pc) then s.afterOpcode.fetchOperands [b0, s.opcodeByte]
  else if b0 == 0xDD then some (.ignoredPrefix .ix, s)
  else if b0 == 0xFD then some (.ignoredPrefix .iy, s)
  else s.fetchOperands [b0]

/-- The instruction at PC, and the state with PC past its bytes and R counting its M1 cycles (R132, R46). -/
def State.fetch (s : State) : Option (Instr × State) := s.afterOpcode.fetchAfter s.opcodeByte

/-- How many M1 cycles an instruction has: 1 without a prefix and for an ignored prefix, else 2 (R46). -/
def m1Count (i : Instr) : Nat :=
  match encode i with
  | b0 :: _ :: _ => if b0 == 0xCB || cancelsPrefix b0 then 2 else 1
  | _ => 1

end Sys2Proof.Machine
end

