-- ==== Sys2Proof/Machine/General.lean ====
section
/-!
DEFINITION. General-purpose arithmetic and CPU control (44_general_cpu_control.md), less the DD/FD delay form, which
Machine/Prefix.lean holds.
-/

namespace Sys2Proof.Machine

/-- `DAA` (R270). -/
def execDaa (s : State) : Result :=
  s.doneFlags 4 { s.core with a := daaResult s.core.a s.core.f, f := daaFlags s.core.a s.core.f }

/-- `CPL` (R271). -/
def execCpl (s : State) : Result :=
  s.doneFlags 4 { s.core with a := s.core.a ^^^ 0xFF, f := cplFlags (s.core.a ^^^ 0xFF) s.core.f }

/-- `NEG` and its duplicates: 0 - A (R272). -/
def execNeg (_y : BitVec 3) (s : State) : Result :=
  s.doneFlags 8 { s.core with a := subResult 0 s.core.a false, f := subFlags 0 s.core.a false }

/-- `CCF` (R273, R282). -/
def execCcf (s : State) : Result :=
  s.doneFlags 4 { s.core with f := ccfFlags (xyScfCcf s.cfg.scfCcfXy s.core) s.core.f }

/-- `SCF` (R274, R282). -/
def execScf (s : State) : Result :=
  s.doneFlags 4 { s.core with f := scfFlags (xyScfCcf s.cfg.scfCcfXy s.core) s.core.f }

/-- `NOP` (R275). -/
def execNop (s : State) : Result := s.done 4 s.core

/-- `HALT` (R276). -/
def execHalt (s : State) : Result := s.done 4 { s.core with halted := true }

/-- `DI` (R277). -/
def execDi (s : State) : Result := s.done 4 { s.core with iff1 := false, iff2 := false }

/-- `EI`: the bookkeeping leaves `ei_delay` set (R278, R430). -/
def execEi (s : State) : Result :=
  let c := (({ s.core with iff1 := true, iff2 := true }).spend 4).endStep 0
  .next (s.setCore { c with eiDelay := true })

/-- `IM 0`, with the IM 0/1 encodings (R279). -/
def execIm0 (_k : BitVec 2) (s : State) : Result := s.done 8 { s.core with im := .im0 }

/-- `IM 1` (R280). -/
def execIm1 (_k : BitVec 1) (s : State) : Result := s.done 8 { s.core with im := .im1 }

/-- `IM 2` (R281). -/
def execIm2 (_k : BitVec 1) (s : State) : Result := s.done 8 { s.core with im := .im2 }

/-- The undefined ED opcodes do nothing (R283). -/
def execNoni (_op : Byte) (s : State) : Result := s.done 8 s.core

/-- An ignored prefix: the bookkeeping leaves `prefix_block` set (R285, R430). -/
def execIgnoredPrefix (_x : IdxReg) (s : State) : Result :=
  let c := (s.core.spend 4).endStep 0
  .next (s.setCore { c with prefixBlock := true })

end Sys2Proof.Machine
end

