-- ==== Sys2Proof/Machine/Exchange.lean ====
section
/-!
DEFINITION. Exchange, block transfer and block search (42_exchange_block.md). Each iteration of a repeating instruction is one
step.
-/

namespace Sys2Proof.Machine

/-- `EX DE,HL` (R210). -/
def execExDeHl (s : State) : Result :=
  s.done 4 { s.core with d := s.core.h, e := s.core.l, h := s.core.d, l := s.core.e }

/-- `EX AF,AF'`; no flag write for Q (R211). -/
def execExAfAf (s : State) : Result :=
  s.done 4 { s.core with a := s.core.a', f := s.core.f', a' := s.core.a, f' := s.core.f }

/-- `EXX` (R212). -/
def execExx (s : State) : Result :=
  s.done 4
    { s.core with
      b := s.core.b', c := s.core.c', d := s.core.d', e := s.core.e', h := s.core.h', l := s.core.l',
      b' := s.core.b, c' := s.core.c, d' := s.core.d, e' := s.core.e, h' := s.core.h, l' := s.core.l }

/-- `EX (SP),HL` (R213). -/
def execExMSpHl (s : State) : Result :=
  let t := s.readWord s.core.sp
  let s1 := s.writeWord s.core.sp s.core.hl
  s1.done 19 { s1.core.setHl t with memptr := t }

/-- `EX (SP),xy` (R214). -/
def exchangeStackIdx (x : IdxReg) (s : State) : Result :=
  let t := s.readWord s.core.sp
  let s1 := s.writeWord s.core.sp (s.core.idx x)
  s1.done 23 { s1.core.setIdx x t with memptr := t }

/-- `EX (SP),IX` (R214). -/
def execExMSpIx (s : State) : Result := exchangeStackIdx .ix s

/-- `EX (SP),IY` (R214). -/
def execExMSpIy (s : State) : Result := exchangeStackIdx .iy s

/-- The T-states of a block iteration: 21 when it repeats, else 16 (R216, R220, R405). -/
def blockTime (repeats : Bool) : Nat := if repeats then 21 else 16

/-- The repeat of a transfer or search: PC back to the ED byte, MEMPTR <- PC + 1, and under `PC_HIGH` the Y and X of
that PC (R216, R220, D8). -/
def repeatBlock (k : BlockRepeatXy) (c : Module) : Module :=
  let pc := c.pc - 2
  match k with
  | .classic => { c with pc := pc, memptr := pc + 1 }
  | .pcHigh => { c with pc := pc, memptr := pc + 1, f := withPcXY c.f pc }

/-- One LDI or LDD transfer; `step` is +1 or -1 (R215, R217). -/
def transferOnce (step : Word) (s : State) : State :=
  let v := s.readByte s.core.hl
  (s.writeByte s.core.de v).mapCore fun c =>
    let counted := ((c.setHl (c.hl + step)).setDe (c.de + step)).setBc (c.bc - 1)
    { counted with f := blockLdFlags v c.a c.f (c.bc - 1 != 0) }

/-- `LDI` and `LDD` (R215, R217). -/
def transferStep (step : Word) (s : State) : Result :=
  let s1 := transferOnce step s
  s1.doneFlags 16 s1.core

/-- `LDIR` and `LDDR` (R216, R218). -/
def transferRepeat (step : Word) (s : State) : Result :=
  let s1 := transferOnce step s
  if s1.core.bc != 0 then s1.doneFlags (blockTime true) (repeatBlock s.cfg.blockRepeatXy s1.core)
  else s1.doneFlags (blockTime false) s1.core

/-- `LDI` (R215). -/
def execLdi (s : State) : Result := transferStep 1 s

/-- `LDIR` (R216). -/
def execLdir (s : State) : Result := transferRepeat 1 s

/-- `LDD` (R217). -/
def execLdd (s : State) : Result := transferStep (-1) s

/-- `LDDR` (R218). -/
def execLddr (s : State) : Result := transferRepeat (-1) s

/-- One CPI or CPD comparison with `v`; `step` is +1 or -1 (R219, R221). -/
def searchOnce (step : Word) (v : Byte) (c : Module) : Module :=
  { (c.setHl (c.hl + step)).setBc (c.bc - 1) with
    f := blockCpFlags v c.a c.f (c.bc - 1 != 0)
    memptr := c.memptr + step }

/-- `CPI` and `CPD` (R219, R221). -/
def searchStep (step : Word) (s : State) : Result :=
  s.doneFlags 16 (searchOnce step (s.readByte s.core.hl) s.core)

/-- `CPIR` and `CPDR`: repeat while BC != 0 and there is no match (R220, R222). -/
def searchRepeat (step : Word) (s : State) : Result :=
  let v := s.readByte s.core.hl
  let c := searchOnce step v s.core
  if c.bc != 0 && s.core.a - v != 0 then s.doneFlags (blockTime true) (repeatBlock s.cfg.blockRepeatXy c)
  else s.doneFlags (blockTime false) c

/-- `CPI` (R219). -/
def execCpi (s : State) : Result := searchStep 1 s

/-- `CPIR` (R220). -/
def execCpir (s : State) : Result := searchRepeat 1 s

/-- `CPD` (R221). -/
def execCpd (s : State) : Result := searchStep (-1) s

/-- `CPDR` (R222). -/
def execCpdr (s : State) : Result := searchRepeat (-1) s

end Sys2Proof.Machine
end

