-- ==== Sys2Proof/Machine/Ports.lean ====
section
/-!
DEFINITION. The I/O space and the devices behind it: the filter, the bank-select latch, the keyboard with the Kempston
joystick and the tape input, the border latch, external devices, open bus (R82, R93, R94, R477, R478, R484 to R490),
and the interrupt-acknowledge bus (R83).
-/

namespace Sys2Proof.Machine

/-- The access lies in the pattern's set. -/
def PortPattern.covers (p : PortPattern) (m : ModuleId) (dir : PortDir) (port : Word) : Bool :=
  p.module == m && p.dir == dir && (port &&& p.mask) == (p.value &&& p.mask)

/-- `P_IO_FILTER(m, port, dir)` (R484, R485): true unless a pattern blocks the access. -/
def ioFilter (g : Config) (m : ModuleId) (port : Word) (dir : PortDir) : Bool :=
  !(g.ioBlocked.any fun p => PortPattern.covers p m dir port)

/-! ### Reads -/

/-- The half-rows a port's high byte selects, ANDed (R489). -/
def selectedRows (rows : KeyMatrix) (port : Word) : BitVec 5 :=
  let pick (k : Fin 8) : BitVec 5 := if port.getLsbD (8 + k.val) then 0x1F else rows[k]
  pick 0 &&& pick 1 &&& pick 2 &&& pick 3 &&& pick 4 &&& pick 5 &&& pick 6 &&& pick 7

/-- The byte of a keyboard read: bits 7 and 5 are 1, bit 6 is the tape input (R489). -/
def keyboardByte (rows : KeyMatrix) (tape : Bool) (port : Word) : Byte :=
  0xA0 ||| (if tape then 0x40 else 0) ||| BitVec.zeroExtend 8 (selectedRows rows port)

/-- The keyboard device answers as the Kempston port (R490). -/
def kempstonAnswers (g : Config) (m : ModuleId) (port : Word) : Bool :=
  match g.boardMode with
  | .classic => loByte port == 0x1F
  | .zxpoly => g.kempstonZxpoly.any fun p => PortPattern.covers p m .read port

/-- `readIo` of the keyboard/Kempston/tape device, none for -1 (R489, R490). DESIGN CHOICE, log entry 25: where a
`P_KEMPSTON_DECODE_ZXPOLY` also accepts an even port, which R489 and R490 then both claim, the keyboard byte is the answer. -/
def State.keyboardRead (s : State) (port : Word) : Option Byte :=
  if port.getLsbD 0 = false then some (keyboardByte s.keysVisible s.tapeIn port)
  else if kempstonAnswers s.cfg s.cur port then some s.joyVisible
  else none

/-- The answer of the first of `n` external devices that answers, draws counted from `k` (R484, R486). -/
def externalAnswer : Nat → Nat → Option Byte
  | 0, _ => none
  | n + 1, k => match Config.freeAnswer k with
    | some v => some v
    | none => externalAnswer n (k + 1)

/-- The byte `PortRead(port)` returns (R484). The border latch never answers (R477). -/
def State.portValue (s : State) (port : Word) : Byte :=
  if ioFilter s.cfg s.cur port .read then
    match s.keyboardRead port with
    | some v => v
    | none => (externalAnswer s.cfg.externals.length s.draws).getD s.cfg.openBus
  else s.cfg.openBus

/-- What `PortRead` leaves: free values may have been taken for the external devices (R486); nothing else (R484). -/
def State.portReadDone (s : State) : State := s.drew s.cfg.externals.length

/-! ### Writes -/

/-- The port is the bank-select port: A15 = 0 and A1 = 0 under the 128K map (R93). -/
def isBankSelect (g : Config) (port : Word) : Bool :=
  g.machineMap == .spectrum128 && !port.getLsbD 15 && !port.getLsbD 1

/-- The lock rule (R94). -/
def lockedWrite (latch v : Byte) : Byte := if latch.getLsbD 5 then latch else v

/-- The module decode of a port write (R485 item 1, R93, R94). -/
def State.bankSelect (s : State) (port : Word) (v : Byte) : State :=
  if isBankSelect s.cfg port then s.mapCore fun c => { c with port7FFD := lockedWrite c.port7FFD v } else s

/-- The raster line of a border write at frame time `tw` (R478). -/
def borderLineOf (g : Config) (tw : Nat) : Nat :=
  min ((((tw : Int) + g.borderOffset) / (g.timing.tstatesPerLine : Int)).toNat) (g.timing.linesPerFrame - 1)

/-- The lines from `l` on take the colour (R478). -/
def fillFrom : List (BitVec 3) → Nat → BitVec 3 → List (BitVec 3)
  | [], _, _ => []
  | _ :: xs, 0, v => v :: fillFrom xs 0 v
  | x :: xs, l + 1, v => x :: fillFrom xs l v

/-- `writeIo` of the border latch, for a write whose step ends at `tw` (R477, R478). -/
def State.borderWrite (s : State) (port : Word) (v : Byte) (tw : Nat) : State :=
  if port.getLsbD 0 = false then
    { s with
      borderCur := v.extractLsb' 0 3
      borderLine := fillFrom s.borderLine (borderLineOf s.cfg tw) (v.extractLsb' 0 3) }
  else s

/-- `PortWrite(port, v)` in a step that ends at frame time `tw` (R485): the module decode, then every device. External
devices change no modelled state (R486). -/
def State.portWrite (s : State) (port : Word) (v : Byte) (tw : Nat) : State :=
  let s1 := s.bankSelect port v
  if ioFilter s.cfg s.cur port .write then s1.borderWrite port v tw else s1

/-! ### The acknowledge bus -/

/-- The byte `IntAckBus()` returns (R83). -/
def State.intAckByte (s : State) : Byte :=
  match s.cfg.intAck with
  | .fixed v => v
  | .draw => s.freeByte

/-- What `IntAckBus()` leaves. -/
def State.intAckDone (s : State) : State :=
  match s.cfg.intAck with
  | .fixed _ => s
  | .draw => s.drew 1

end Sys2Proof.Machine
end

