-- ==== Sys2Proof/Machine/Io.lean ====
section
/-!
DEFINITION. The input and output group (49_io.md). A port write is given the frame time at which its step ends (R478).
-/

namespace Sys2Proof.Machine

/-- `IN A,(n)` (R400). -/
def execInAN (n : Byte) (s : State) : Result :=
  let port := pair s.core.a n
  s.portReadDone.done 11 { s.core with a := s.portValue port, memptr := port + 1 }

/-- `IN r,(C)` (R401). -/
def execInRC (r : Reg8) (s : State) : Result :=
  let v := s.portValue s.core.bc
  s.portReadDone.doneFlags 12
    { s.core.setReg8 r v with f := inFlags v s.core.f, memptr := s.core.bc + 1 }

/-- `IN (C)`: flags only (R402). -/
def execInC (s : State) : Result :=
  let v := s.portValue s.core.bc
  s.portReadDone.doneFlags 12 { s.core with f := inFlags v s.core.f, memptr := s.core.bc + 1 }

/-- `OUT (n),A` (R408). -/
def execOutNA (n : Byte) (s : State) : Result :=
  let s1 := s.portWrite (pair s.core.a n) s.core.a (s.core.t + 11)
  s1.done 11 { s1.core with memptr := pair s.core.a (n + 1) }

/-- A write of `v` to port BC in 12 T-states (R409, R410). -/
def outToBc (v : Byte) (s : State) : Result :=
  let s1 := s.portWrite s.core.bc v (s.core.t + 12)
  s1.done 12 { s1.core with memptr := s.core.bc + 1 }

/-- `OUT (C),r` (R409). -/
def execOutCR (r : Reg8) (s : State) : Result := outToBc (s.core.reg8 r) s

/-- `OUT (C),0`: the parameter `P_OUT_C_ZERO` (R410). -/
def execOutC0 (s : State) : Result := outToBc s.cfg.outCZero s

/-- The end of a block I/O iteration with flags `fl` (R403, R405): when it repeats, PC goes back to the ED byte, and under
`PC_HIGH` H, P/V, Y and X are free values. -/
def blockIoEnd (repeats : Bool) (fl : Byte) (s : State) : Result :=
  if repeats then
    match s.cfg.blockRepeatXy with
    | .classic => s.doneFlags (blockTime true) { s.core with pc := s.core.pc - 2, f := fl }
    | .pcHigh => (s.drew 1).doneFlags (blockTime true)
        { s.core with pc := s.core.pc - 2, f := withFreeYHXP fl s.freeByte }
  else s.doneFlags (blockTime false) { s.core with f := fl }

/-- One INI or IND iteration; `step` is +1 or -1, `rep` says the instruction repeats (R404 to R407). -/
def inBlock (step : Word) (cStep : Byte) (rep : Bool) (s : State) : Result :=
  let v := s.portValue s.core.bc
  let b' := s.core.b - 1
  let s1 := s.portReadDone.mapCore fun c => { c with memptr := c.bc + step, b := b' }
  let s2 := (s1.writeByte s1.core.hl v).mapCore fun c => c.setHl (c.hl + step)
  blockIoEnd (rep && b' != 0) (blockIoFlags v b' (s.core.c + cStep)) s2

/-- One OUTI or OUTD iteration; the port address and MEMPTR use the decremented B (R411 to R414). -/
def outBlock (step : Word) (rep : Bool) (s : State) : Result :=
  let v := s.readByte s.core.hl
  let b' := s.core.b - 1
  let port := pair b' s.core.c
  let repeats := rep && b' != 0
  let s1 := (s.mapCore fun c => { c with b := b' }).portWrite port v (s.core.t + blockTime repeats)
  let s2 := s1.mapCore fun c => { c.setHl (c.hl + step) with memptr := port + step }
  blockIoEnd repeats (blockIoFlags v b' s2.core.l) s2

/-- `INI` (R404). -/
def execIni (s : State) : Result := inBlock 1 1 false s

/-- `INIR` (R405). -/
def execInir (s : State) : Result := inBlock 1 1 true s

/-- `IND` (R406). -/
def execInd (s : State) : Result := inBlock (-1) (-1) false s

/-- `INDR` (R407). -/
def execIndr (s : State) : Result := inBlock (-1) (-1) true s

/-- `OUTI` (R411). -/
def execOuti (s : State) : Result := outBlock 1 false s

/-- `OTIR` (R412). -/
def execOtir (s : State) : Result := outBlock 1 true s

/-- `OUTD` (R413). -/
def execOutd (s : State) : Result := outBlock (-1) false s

/-- `OTDR` (R414). -/
def execOtdr (s : State) : Result := outBlock (-1) true s

end Sys2Proof.Machine
end

