-- ==== Sys2Proof/Machine/Jump.lean ====
section
/-!
DEFINITION. The jump, call and return group (48_jump_call_return.md).
-/

namespace Sys2Proof.Machine

/-- `JP nn` (R371). -/
def execJpNn (nn : Word) (s : State) : Result := s.done 10 { s.core with pc := nn, memptr := nn }

/-- `JP cc,nn`: MEMPTR takes nn either way (R372). -/
def execJpCcNn (cc : Cond) (nn : Word) (s : State) : Result :=
  if holds cc s.core.f then s.done 10 { s.core with pc := nn, memptr := nn }
  else s.done 10 { s.core with memptr := nn }

/-- A taken relative jump: PC is past the instruction (R370). -/
def relativeJump (e : Byte) (c : Module) : Module :=
  { c with pc := c.pc + sext16 e, memptr := c.pc + sext16 e }

/-- `JR e` (R373). -/
def execJr (e : Byte) (s : State) : Result := s.done 12 (relativeJump e s.core)

/-- `JR cc,e` (R374). -/
def execJrCc (cc : JrCond) (e : Byte) (s : State) : Result :=
  if holds (JrCond.cond cc) s.core.f then s.done 12 (relativeJump e s.core) else s.done 7 s.core

/-- `JP (HL)` (R375). -/
def execJpHl (s : State) : Result := s.done 4 { s.core with pc := s.core.hl }

/-- `JP (IX)` (R376). -/
def execJpIx (s : State) : Result := s.done 8 { s.core with pc := s.core.ix }

/-- `JP (IY)` (R376). -/
def execJpIy (s : State) : Result := s.done 8 { s.core with pc := s.core.iy }

/-- `DJNZ e` (R377). -/
def execDjnz (e : Byte) (s : State) : Result :=
  let c := { s.core with b := s.core.b - 1 }
  if c.b != 0 then s.done 13 (relativeJump e c) else s.done 8 c

/-- A call of `target` in `n` T-states: the pushed PC is past the instruction (R378, R382). -/
def callStep (target : Word) (n : Nat) (s : State) : Result :=
  let s1 := s.push s.core.pc
  s1.done n { s1.core with pc := target, memptr := target }

/-- `CALL nn` (R378). -/
def execCallNn (nn : Word) (s : State) : Result := callStep nn 17 s

/-- `CALL cc,nn`: MEMPTR takes nn either way (R379). -/
def execCallCcNn (cc : Cond) (nn : Word) (s : State) : Result :=
  if holds cc s.core.f then callStep nn 17 s else s.done 10 { s.core with memptr := nn }

/-- A return in `n` T-states (R380, R381). -/
def returnStep (n : Nat) (s : State) : Result :=
  s.done n { s.popped.core with pc := s.popValue, memptr := s.popValue }

/-- `RET` (R380). -/
def execRet (s : State) : Result := returnStep 10 s

/-- `RET cc` (R381). -/
def execRetCc (cc : Cond) (s : State) : Result :=
  if holds cc s.core.f then returnStep 11 s else s.done 5 s.core

/-- `RST p` with p = y * 8 (R382). -/
def execRst (y : BitVec 3) (s : State) : Result := callStep (rstAddress y) 11 s

/-- `RETN` and its duplicates (R384). -/
def execRetn (_y : BitVec 3) (s : State) : Result := s.leaveHandler.done 14 s.leaveHandler.core

/-- `RETI`: NotifyRETI sets `reti_seen` (R385, R56). -/
def execReti (s : State) : Result := s.leaveHandler.done 14 { s.leaveHandler.core with retiSeen := true }

end Sys2Proof.Machine
end

