-- ==== Sys2Proof/Machine/Load16.lean ====
section
/-!
DEFINITION. The 16-bit load and stack group (41_load16.md).
-/

namespace Sys2Proof.Machine

/-- `LD dd,nn` (R180). -/
def execLdDdNn (dd : Rp) (nn : Word) (s : State) : Result := s.done 10 (s.core.setRp dd nn)

/-- `LD IX,nn` (R181). -/
def execLdIxNn (nn : Word) (s : State) : Result := s.done 14 (s.core.setIdx .ix nn)

/-- `LD IY,nn` (R181). -/
def execLdIyNn (nn : Word) (s : State) : Result := s.done 14 (s.core.setIdx .iy nn)

/-- `LD HL,(nn)` (R182). -/
def execLdHlMNn (nn : Word) (s : State) : Result :=
  s.done 16 { s.core.setHl (s.readWord nn) with memptr := nn + 1 }

/-- `LD dd,(nn)`, the ED form (R183). -/
def execLdDdMNn (dd : Rp) (nn : Word) (s : State) : Result :=
  s.done 20 { s.core.setRp dd (s.readWord nn) with memptr := nn + 1 }

/-- `LD IX,(nn)` (R184). -/
def execLdIxMNn (nn : Word) (s : State) : Result :=
  s.done 20 { s.core.setIdx .ix (s.readWord nn) with memptr := nn + 1 }

/-- `LD IY,(nn)` (R184). -/
def execLdIyMNn (nn : Word) (s : State) : Result :=
  s.done 20 { s.core.setIdx .iy (s.readWord nn) with memptr := nn + 1 }

/-- A store of the word `v` to nn, with MEMPTR <- nn + 1 (R185 to R187). -/
def storeWordTo (nn v : Word) (n : Nat) (s : State) : Result :=
  let s1 := s.writeWord nn v
  s1.done n { s1.core with memptr := nn + 1 }

/-- `LD (nn),HL` (R185). -/
def execLdMNnHl (nn : Word) (s : State) : Result := storeWordTo nn s.core.hl 16 s

/-- `LD (nn),dd`, the ED form (R186). -/
def execLdMNnDd (dd : Rp) (nn : Word) (s : State) : Result := storeWordTo nn (s.core.rp dd) 20 s

/-- `LD (nn),IX` (R187). -/
def execLdMNnIx (nn : Word) (s : State) : Result := storeWordTo nn s.core.ix 20 s

/-- `LD (nn),IY` (R187). -/
def execLdMNnIy (nn : Word) (s : State) : Result := storeWordTo nn s.core.iy 20 s

/-- `LD SP,HL` (R188). -/
def execLdSpHl (s : State) : Result := s.done 6 { s.core with sp := s.core.hl }

/-- `LD SP,IX` (R189). -/
def execLdSpIx (s : State) : Result := s.done 10 { s.core with sp := s.core.ix }

/-- `LD SP,IY` (R189). -/
def execLdSpIy (s : State) : Result := s.done 10 { s.core with sp := s.core.iy }

/-- A push of `v` that ends the step (R190, R191). -/
def pushStep (v : Word) (n : Nat) (s : State) : Result :=
  let s1 := s.push v
  s1.done n s1.core

/-- `PUSH qq` (R190). -/
def execPushQq (qq : Rp2) (s : State) : Result := pushStep (s.core.rp2 qq) 11 s

/-- `PUSH IX` (R191). -/
def execPushIx (s : State) : Result := pushStep s.core.ix 15 s

/-- `PUSH IY` (R191). -/
def execPushIy (s : State) : Result := pushStep s.core.iy 15 s

/-- `POP qq`; POP AF replaces F and is no flag write for Q (R192). -/
def execPopQq (qq : Rp2) (s : State) : Result := s.done 10 (s.popped.core.setRp2 qq s.popValue)

/-- `POP IX` (R193). -/
def execPopIx (s : State) : Result := s.done 14 (s.popped.core.setIdx .ix s.popValue)

/-- `POP IY` (R193). -/
def execPopIy (s : State) : Result := s.done 14 (s.popped.core.setIdx .iy s.popValue)

end Sys2Proof.Machine
end

