-- ==== Sys2Proof/Machine/Load8.lean ====
section
/-!
DEFINITION. The 8-bit load group (40_load8.md). A meaning starts from the state whose PC is past the instruction's bytes and
whose R counts its M1 cycles; its first number is the T-states.
-/

namespace Sys2Proof.Machine

/-- `LD r,r'` (R150). -/
def execLdRR (r r' : Reg8) (s : State) : Result := s.done 4 (s.core.setReg8 r (s.core.reg8 r'))

/-- `LD r,n` (R151). -/
def execLdRN (r : Reg8) (n : Byte) (s : State) : Result := s.done 7 (s.core.setReg8 r n)

/-- `LD r,(HL)` (R152). -/
def execLdRMHl (r : Reg8) (s : State) : Result := s.done 7 (s.core.setReg8 r (s.readByte s.core.hl))

/-- `LD r,(xy+d)`: the real H and L (R153). -/
def loadIndexed (x : IdxReg) (r : Reg8) (d : Byte) (s : State) : Result :=
  let ea := s.core.ea x d
  s.done 19 { s.core.setReg8 r (s.readByte ea) with memptr := ea }

/-- `LD r,(IX+d)` (R153). -/
def execLdRMIx (r : Reg8) (d : Byte) (s : State) : Result := loadIndexed .ix r d s

/-- `LD r,(IY+d)` (R153). -/
def execLdRMIy (r : Reg8) (d : Byte) (s : State) : Result := loadIndexed .iy r d s

/-- `LD (HL),r` (R154). -/
def execLdMHlR (r : Reg8) (s : State) : Result :=
  let s1 := s.writeByte s.core.hl (s.core.reg8 r)
  s1.done 7 s1.core

/-- A store of `v` to (xy+d) in 19 T-states (R155, R157). -/
def storeIndexed (x : IdxReg) (d v : Byte) (s : State) : Result :=
  let ea := s.core.ea x d
  let s1 := s.writeByte ea v
  s1.done 19 { s1.core with memptr := ea }

/-- `LD (IX+d),r` (R155). -/
def execLdMIxR (r : Reg8) (d : Byte) (s : State) : Result := storeIndexed .ix d (s.core.reg8 r) s

/-- `LD (IY+d),r` (R155). -/
def execLdMIyR (r : Reg8) (d : Byte) (s : State) : Result := storeIndexed .iy d (s.core.reg8 r) s

/-- `LD (HL),n` (R156). -/
def execLdMHlN (n : Byte) (s : State) : Result :=
  let s1 := s.writeByte s.core.hl n
  s1.done 10 s1.core

/-- `LD (IX+d),n` (R157). -/
def execLdMIxN (d n : Byte) (s : State) : Result := storeIndexed .ix d n s

/-- `LD (IY+d),n` (R157). -/
def execLdMIyN (d n : Byte) (s : State) : Result := storeIndexed .iy d n s

/-- A load of A from address `a`, with MEMPTR <- a + 1 (R158 to R160). -/
def loadAFrom (a : Word) (n : Nat) (s : State) : Result :=
  s.done n { s.core with a := s.readByte a, memptr := a + 1 }

/-- `LD A,(BC)` (R158). -/
def execLdAMBc (s : State) : Result := loadAFrom s.core.bc 7 s

/-- `LD A,(DE)` (R159). -/
def execLdAMDe (s : State) : Result := loadAFrom s.core.de 7 s

/-- `LD A,(nn)` (R160). -/
def execLdAMNn (nn : Word) (s : State) : Result := loadAFrom nn 13 s

/-- A store of A to address `a`, with MEMPTR <- A : low(a) + 1, its low byte wrapping (R161 to R163). -/
def storeATo (a : Word) (n : Nat) (s : State) : Result :=
  let s1 := s.writeByte a s.core.a
  s1.done n { s1.core with memptr := pair s.core.a (loByte a + 1) }

/-- `LD (BC),A` (R161). -/
def execLdMBcA (s : State) : Result := storeATo s.core.bc 7 s

/-- `LD (DE),A` (R162). -/
def execLdMDeA (s : State) : Result := storeATo s.core.de 7 s

/-- `LD (nn),A` (R163). -/
def execLdMNnA (nn : Word) (s : State) : Result := storeATo nn 13 s

/-- The effect LD A,I and LD A,R share: the flags, and `ldair` left set by the bookkeeping (R164, R165, R430). -/
def loadAFromIR (v : Byte) (s : State) : Result :=
  let c := (({ s.core with a := v, f := ldAirFlags v s.core.f s.core.iff2 }).spend 9).endStep
    (ldAirFlags v s.core.f s.core.iff2)
  .next (s.setCore { c with ldair := true })

/-- `LD A,I` (R164). -/
def execLdAI (s : State) : Result := loadAFromIR s.core.i s

/-- `LD A,R`: R after this instruction's own M1 cycles (R165). -/
def execLdAR (s : State) : Result := loadAFromIR s.core.r s

/-- `LD I,A` (R166). -/
def execLdIA (s : State) : Result := s.done 9 { s.core with i := s.core.a }

/-- `LD R,A`: all 8 bits (R167). -/
def execLdRA (s : State) : Result := s.done 9 { s.core with r := s.core.a }

/-- `LD p,p'` with an index half (R168). -/
def execLdPP (x : IdxReg) (p p' : HReg) (s : State) : Result := s.done 8 (s.core.setHreg x p (s.core.hreg x p'))

/-- `LD xyH,n` and `LD xyL,n` (R169). -/
def execLdHalfN (x : IdxReg) (h : Half) (n : Byte) (s : State) : Result := s.done 11 (s.core.setHalf x h n)

end Sys2Proof.Machine
end

