-- ==== Sys2Proof/Machine/Prefix.lean ====
section
/-!
DEFINITION. The forms that run another instruction: a DD/FD prefix before an opcode it leaves as it is (R286), and a prefix
whose instruction is still to be fetched (R132).
-/

namespace Sys2Proof.Machine

/-- The effect of an instruction that is no prefixed form of another and no lone prefix. -/
def runPlain (i : Instr) (s : State) : Result :=
  match i with
  | .nop => execNop s
  | .ldDdNn dd nn => execLdDdNn dd nn s
  | .ldMBcA => execLdMBcA s
  | .incSs ss => execIncSs ss s
  | .incR r => execIncR r s
  | .decR r => execDecR r s
  | .ldRN r n => execLdRN r n s
  | .rlca => execRlca s
  | .exAfAf => execExAfAf s
  | .addHlSs ss => execAddHlSs ss s
  | .ldAMBc => execLdAMBc s
  | .decSs ss => execDecSs ss s
  | .rrca => execRrca s
  | .djnz e => execDjnz e s
  | .ldMDeA => execLdMDeA s
  | .rla => execRla s
  | .jr e => execJr e s
  | .ldAMDe => execLdAMDe s
  | .rra => execRra s
  | .jrCc cc e => execJrCc cc e s
  | .ldMNnHl nn => execLdMNnHl nn s
  | .daa => execDaa s
  | .ldHlMNn nn => execLdHlMNn nn s
  | .cpl => execCpl s
  | .ldMNnA nn => execLdMNnA nn s
  | .incMHl => execIncMHl s
  | .decMHl => execDecMHl s
  | .ldMHlN n => execLdMHlN n s
  | .scf => execScf s
  | .ldAMNn nn => execLdAMNn nn s
  | .ccf => execCcf s
  | .ldRR r r' => execLdRR r r' s
  | .ldRMHl r => execLdRMHl r s
  | .ldMHlR r => execLdMHlR r s
  | .halt => execHalt s
  | .addAR r => execAddAR r s
  | .addAMHl => execAddAMHl s
  | .adcAR r => execAdcAR r s
  | .adcAMHl => execAdcAMHl s
  | .subR r => execSubR r s
  | .subMHl => execSubMHl s
  | .sbcAR r => execSbcAR r s
  | .sbcAMHl => execSbcAMHl s
  | .andR r => execAndR r s
  | .andMHl => execAndMHl s
  | .xorR r => execXorR r s
  | .xorMHl => execXorMHl s
  | .orR r => execOrR r s
  | .orMHl => execOrMHl s
  | .cpR r => execCpR r s
  | .cpMHl => execCpMHl s
  | .retCc cc => execRetCc cc s
  | .popQq qq => execPopQq qq s
  | .jpCcNn cc nn => execJpCcNn cc nn s
  | .jpNn nn => execJpNn nn s
  | .callCcNn cc nn => execCallCcNn cc nn s
  | .pushQq qq => execPushQq qq s
  | .rst y => execRst y s
  | .ret => execRet s
  | .callNn nn => execCallNn nn s
  | .outNA n => execOutNA n s
  | .exx => execExx s
  | .inAN n => execInAN n s
  | .exMSpHl => execExMSpHl s
  | .jpHl => execJpHl s
  | .exDeHl => execExDeHl s
  | .di => execDi s
  | .ldSpHl => execLdSpHl s
  | .ei => execEi s
  | .addAN n => execAddAN n s
  | .adcAN n => execAdcAN n s
  | .subN n => execSubN n s
  | .sbcAN n => execSbcAN n s
  | .andN n => execAndN n s
  | .xorN n => execXorN n s
  | .orN n => execOrN n s
  | .cpN n => execCpN n s
  | .prefixCb => .refused .notAnInstruction
  | .prefixDd => .refused .notAnInstruction
  | .prefixEd => .refused .notAnInstruction
  | .prefixFd => .refused .notAnInstruction
  | .rlcR r => execRlcR r s
  | .rrcR r => execRrcR r s
  | .rlR r => execRlR r s
  | .rrR r => execRrR r s
  | .slaR r => execSlaR r s
  | .sraR r => execSraR r s
  | .sllR r => execSllR r s
  | .srlR r => execSrlR r s
  | .rotMHl op => execRotMHl op s
  | .bitR b r => execBitR b r s
  | .bitMHl b => execBitMHl b s
  | .resR b r => execResR b r s
  | .resMHl b => execResMHl b s
  | .setR b r => execSetR b r s
  | .setMHl b => execSetMHl b s
  | .noni op => execNoni op s
  | .inRC r => execInRC r s
  | .outCR r => execOutCR r s
  | .sbcHlSs ss => execSbcHlSs ss s
  | .ldMNnDd dd nn => execLdMNnDd dd nn s
  | .neg y => execNeg y s
  | .retn y => execRetn y s
  | .im0 k => execIm0 k s
  | .ldIA => execLdIA s
  | .adcHlSs ss => execAdcHlSs ss s
  | .ldDdMNn dd nn => execLdDdMNn dd nn s
  | .reti => execReti s
  | .ldRA => execLdRA s
  | .im1 k => execIm1 k s
  | .ldAI => execLdAI s
  | .im2 k => execIm2 k s
  | .ldAR => execLdAR s
  | .rrd => execRrd s
  | .rld => execRld s
  | .inC => execInC s
  | .outC0 => execOutC0 s
  | .ldi => execLdi s
  | .cpi => execCpi s
  | .ini => execIni s
  | .outi => execOuti s
  | .ldd => execLdd s
  | .cpd => execCpd s
  | .ind => execInd s
  | .outd => execOutd s
  | .ldir => execLdir s
  | .cpir => execCpir s
  | .inir => execInir s
  | .otir => execOtir s
  | .lddr => execLddr s
  | .cpdr => execCpdr s
  | .indr => execIndr s
  | .otdr => execOtdr s
  | .ddFd _ _ => .refused .notAnInstruction
  | .ignoredPrefix x => execIgnoredPrefix x s
  | .incHalf x h => execIncHalf x h s
  | .decHalf x h => execDecHalf x h s
  | .ldHalfN x h n => execLdHalfN x h n s
  | .ldPP x p p' => execLdPP x p p' s
  | .addAHalf x h => execAddAHalf x h s
  | .adcAHalf x h => execAdcAHalf x h s
  | .subHalf x h => execSubHalf x h s
  | .sbcAHalf x h => execSbcAHalf x h s
  | .andHalf x h => execAndHalf x h s
  | .xorHalf x h => execXorHalf x h s
  | .orHalf x h => execOrHalf x h s
  | .cpHalf x h => execCpHalf x h s
  | .addIxPp pp => execAddIxPp pp s
  | .ldIxNn nn => execLdIxNn nn s
  | .ldMNnIx nn => execLdMNnIx nn s
  | .incIx => execIncIx s
  | .ldIxMNn nn => execLdIxMNn nn s
  | .decIx => execDecIx s
  | .incMIx d => execIncMIx d s
  | .decMIx d => execDecMIx d s
  | .ldMIxN d n => execLdMIxN d n s
  | .ldRMIx r d => execLdRMIx r d s
  | .ldMIxR r d => execLdMIxR r d s
  | .addAMIx d => execAddAMIx d s
  | .adcAMIx d => execAdcAMIx d s
  | .subMIx d => execSubMIx d s
  | .sbcAMIx d => execSbcAMIx d s
  | .andMIx d => execAndMIx d s
  | .xorMIx d => execXorMIx d s
  | .orMIx d => execOrMIx d s
  | .cpMIx d => execCpMIx d s
  | .prefixDdCb => .refused .notAnInstruction
  | .popIx => execPopIx s
  | .exMSpIx => execExMSpIx s
  | .pushIx => execPushIx s
  | .jpIx => execJpIx s
  | .ldSpIx => execLdSpIx s
  | .rotMIxR op r d => execRotMIxR op r d s
  | .rotMIx op d => execRotMIx op d s
  | .bitMIx b z d => execBitMIx b z d s
  | .resMIxR b r d => execResMIxR b r d s
  | .resMIx b d => execResMIx b d s
  | .setMIxR b r d => execSetMIxR b r d s
  | .setMIx b d => execSetMIx b d s
  | .addIyPp pp => execAddIyPp pp s
  | .ldIyNn nn => execLdIyNn nn s
  | .ldMNnIy nn => execLdMNnIy nn s
  | .incIy => execIncIy s
  | .ldIyMNn nn => execLdIyMNn nn s
  | .decIy => execDecIy s
  | .incMIy d => execIncMIy d s
  | .decMIy d => execDecMIy d s
  | .ldMIyN d n => execLdMIyN d n s
  | .ldRMIy r d => execLdRMIy r d s
  | .ldMIyR r d => execLdMIyR r d s
  | .addAMIy d => execAddAMIy d s
  | .adcAMIy d => execAdcAMIy d s
  | .subMIy d => execSubMIy d s
  | .sbcAMIy d => execSbcAMIy d s
  | .andMIy d => execAndMIy d s
  | .xorMIy d => execXorMIy d s
  | .orMIy d => execOrMIy d s
  | .cpMIy d => execCpMIy d s
  | .prefixFdCb => .refused .notAnInstruction
  | .popIy => execPopIy s
  | .exMSpIy => execExMSpIy s
  | .pushIy => execPushIy s
  | .jpIy => execJpIy s
  | .ldSpIy => execLdSpIy s
  | .rotMIyR op r d => execRotMIyR op r d s
  | .rotMIy op d => execRotMIy op d s
  | .bitMIy b z d => execBitMIy b z d s
  | .resMIyR b r d => execResMIyR b r d s
  | .resMIy b d => execResMIy b d s
  | .setMIyR b r d => execSetMIyR b r d s
  | .setMIy b d => execSetMIy b d s

/-- A DD or FD prefix before an opcode it leaves as it is: that instruction in 4 more T-states (R124(d), R286). No bytes
decode to the form around any other instruction. -/
def execDdFd (_x : IdxReg) (op : Instr) (s : State) : Result :=
  if op.unaffected then runPlain op (s.mapCore fun c => c.spend 4) else .refused .notAnInstruction

/-- Any instruction that is no lone prefix. -/
def runFetched (i : Instr) (s : State) : Result :=
  match i with
  | .ddFd x op => execDdFd x op s
  | i => runPlain i s

/-- What follows once the rest of an instruction is fetched. -/
def runNext (p : Option (Instr × State)) : Result :=
  match p with
  | some (i, s) => runFetched i s
  | none => .fault .unimplementedOpcode

/-- CB with the rest to fetch: the CB-space instruction at PC (R132). -/
def execPrefixCb (s : State) : Result := runNext (s.fetchAfter 0xCB)

/-- ED with the rest to fetch: the ED-space instruction at PC (R132). -/
def execPrefixEd (s : State) : Result := runNext (s.fetchAfter 0xED)

/-- DD with the rest to fetch: an ignored prefix, or the IX form at PC (R132). -/
def execPrefixDd (s : State) : Result := runNext (s.fetchAfter 0xDD)

/-- FD with the rest to fetch: an ignored prefix, or the IY form at PC (R132). -/
def execPrefixFd (s : State) : Result := runNext (s.fetchAfter 0xFD)

/-- DD CB with d and the opcode to fetch, neither of them an M1 cycle (R125, R132). -/
def execPrefixDdCb (s : State) : Result := runNext (s.fetchOperands [0xDD, 0xCB])

/-- FD CB with d and the opcode to fetch, neither of them an M1 cycle (R125, R132). -/
def execPrefixFdCb (s : State) : Result := runNext (s.fetchOperands [0xFD, 0xCB])

end Sys2Proof.Machine
end

