-- ==== Sys2Proof/Machine/Dispatch.lean ====
section
/-!
DEFINITION. The dispatch: one arm per instruction, each one call of its meaning.
-/

namespace Sys2Proof.Machine

/-- The effect of an instruction on the state whose PC is past the bytes fetched and whose R counts their M1 cycles. -/
def exec (i : Instr) (s : State) : Host.Outcome State Fault Refusal :=
  match i with
  | .nop => Sys2Proof.Machine.execNop s
  | .ldDdNn dd nn => Sys2Proof.Machine.execLdDdNn dd nn s
  | .ldMBcA => Sys2Proof.Machine.execLdMBcA s
  | .incSs ss => Sys2Proof.Machine.execIncSs ss s
  | .incR r => Sys2Proof.Machine.execIncR r s
  | .decR r => Sys2Proof.Machine.execDecR r s
  | .ldRN r n => Sys2Proof.Machine.execLdRN r n s
  | .rlca => Sys2Proof.Machine.execRlca s
  | .exAfAf => Sys2Proof.Machine.execExAfAf s
  | .addHlSs ss => Sys2Proof.Machine.execAddHlSs ss s
  | .ldAMBc => Sys2Proof.Machine.execLdAMBc s
  | .decSs ss => Sys2Proof.Machine.execDecSs ss s
  | .rrca => Sys2Proof.Machine.execRrca s
  | .djnz e => Sys2Proof.Machine.execDjnz e s
  | .ldMDeA => Sys2Proof.Machine.execLdMDeA s
  | .rla => Sys2Proof.Machine.execRla s
  | .jr e => Sys2Proof.Machine.execJr e s
  | .ldAMDe => Sys2Proof.Machine.execLdAMDe s
  | .rra => Sys2Proof.Machine.execRra s
  | .jrCc cc e => Sys2Proof.Machine.execJrCc cc e s
  | .ldMNnHl nn => Sys2Proof.Machine.execLdMNnHl nn s
  | .daa => Sys2Proof.Machine.execDaa s
  | .ldHlMNn nn => Sys2Proof.Machine.execLdHlMNn nn s
  | .cpl => Sys2Proof.Machine.execCpl s
  | .ldMNnA nn => Sys2Proof.Machine.execLdMNnA nn s
  | .incMHl => Sys2Proof.Machine.execIncMHl s
  | .decMHl => Sys2Proof.Machine.execDecMHl s
  | .ldMHlN n => Sys2Proof.Machine.execLdMHlN n s
  | .scf => Sys2Proof.Machine.execScf s
  | .ldAMNn nn => Sys2Proof.Machine.execLdAMNn nn s
  | .ccf => Sys2Proof.Machine.execCcf s
  | .ldRR r r' => Sys2Proof.Machine.execLdRR r r' s
  | .ldRMHl r => Sys2Proof.Machine.execLdRMHl r s
  | .ldMHlR r => Sys2Proof.Machine.execLdMHlR r s
  | .halt => Sys2Proof.Machine.execHalt s
  | .addAR r => Sys2Proof.Machine.execAddAR r s
  | .addAMHl => Sys2Proof.Machine.execAddAMHl s
  | .adcAR r => Sys2Proof.Machine.execAdcAR r s
  | .adcAMHl => Sys2Proof.Machine.execAdcAMHl s
  | .subR r => Sys2Proof.Machine.execSubR r s
  | .subMHl => Sys2Proof.Machine.execSubMHl s
  | .sbcAR r => Sys2Proof.Machine.execSbcAR r s
  | .sbcAMHl => Sys2Proof.Machine.execSbcAMHl s
  | .andR r => Sys2Proof.Machine.execAndR r s
  | .andMHl => Sys2Proof.Machine.execAndMHl s
  | .xorR r => Sys2Proof.Machine.execXorR r s
  | .xorMHl => Sys2Proof.Machine.execXorMHl s
  | .orR r => Sys2Proof.Machine.execOrR r s
  | .orMHl => Sys2Proof.Machine.execOrMHl s
  | .cpR r => Sys2Proof.Machine.execCpR r s
  | .cpMHl => Sys2Proof.Machine.execCpMHl s
  | .retCc cc => Sys2Proof.Machine.execRetCc cc s
  | .popQq qq => Sys2Proof.Machine.execPopQq qq s
  | .jpCcNn cc nn => Sys2Proof.Machine.execJpCcNn cc nn s
  | .jpNn nn => Sys2Proof.Machine.execJpNn nn s
  | .callCcNn cc nn => Sys2Proof.Machine.execCallCcNn cc nn s
  | .pushQq qq => Sys2Proof.Machine.execPushQq qq s
  | .rst y => Sys2Proof.Machine.execRst y s
  | .ret => Sys2Proof.Machine.execRet s
  | .callNn nn => Sys2Proof.Machine.execCallNn nn s
  | .outNA n => Sys2Proof.Machine.execOutNA n s
  | .exx => Sys2Proof.Machine.execExx s
  | .inAN n => Sys2Proof.Machine.execInAN n s
  | .exMSpHl => Sys2Proof.Machine.execExMSpHl s
  | .jpHl => Sys2Proof.Machine.execJpHl s
  | .exDeHl => Sys2Proof.Machine.execExDeHl s
  | .di => Sys2Proof.Machine.execDi s
  | .ldSpHl => Sys2Proof.Machine.execLdSpHl s
  | .ei => Sys2Proof.Machine.execEi s
  | .addAN n => Sys2Proof.Machine.execAddAN n s
  | .adcAN n => Sys2Proof.Machine.execAdcAN n s
  | .subN n => Sys2Proof.Machine.execSubN n s
  | .sbcAN n => Sys2Proof.Machine.execSbcAN n s
  | .andN n => Sys2Proof.Machine.execAndN n s
  | .xorN n => Sys2Proof.Machine.execXorN n s
  | .orN n => Sys2Proof.Machine.execOrN n s
  | .cpN n => Sys2Proof.Machine.execCpN n s
  | .prefixCb => Sys2Proof.Machine.execPrefixCb s
  | .prefixDd => Sys2Proof.Machine.execPrefixDd s
  | .prefixEd => Sys2Proof.Machine.execPrefixEd s
  | .prefixFd => Sys2Proof.Machine.execPrefixFd s
  | .rlcR r => Sys2Proof.Machine.execRlcR r s
  | .rrcR r => Sys2Proof.Machine.execRrcR r s
  | .rlR r => Sys2Proof.Machine.execRlR r s
  | .rrR r => Sys2Proof.Machine.execRrR r s
  | .slaR r => Sys2Proof.Machine.execSlaR r s
  | .sraR r => Sys2Proof.Machine.execSraR r s
  | .sllR r => Sys2Proof.Machine.execSllR r s
  | .srlR r => Sys2Proof.Machine.execSrlR r s
  | .rotMHl op => Sys2Proof.Machine.execRotMHl op s
  | .bitR b r => Sys2Proof.Machine.execBitR b r s
  | .bitMHl b => Sys2Proof.Machine.execBitMHl b s
  | .resR b r => Sys2Proof.Machine.execResR b r s
  | .resMHl b => Sys2Proof.Machine.execResMHl b s
  | .setR b r => Sys2Proof.Machine.execSetR b r s
  | .setMHl b => Sys2Proof.Machine.execSetMHl b s
  | .noni op => Sys2Proof.Machine.execNoni op s
  | .inRC r => Sys2Proof.Machine.execInRC r s
  | .outCR r => Sys2Proof.Machine.execOutCR r s
  | .sbcHlSs ss => Sys2Proof.Machine.execSbcHlSs ss s
  | .ldMNnDd dd nn => Sys2Proof.Machine.execLdMNnDd dd nn s
  | .neg y => Sys2Proof.Machine.execNeg y s
  | .retn y => Sys2Proof.Machine.execRetn y s
  | .im0 k => Sys2Proof.Machine.execIm0 k s
  | .ldIA => Sys2Proof.Machine.execLdIA s
  | .adcHlSs ss => Sys2Proof.Machine.execAdcHlSs ss s
  | .ldDdMNn dd nn => Sys2Proof.Machine.execLdDdMNn dd nn s
  | .reti => Sys2Proof.Machine.execReti s
  | .ldRA => Sys2Proof.Machine.execLdRA s
  | .im1 k => Sys2Proof.Machine.execIm1 k s
  | .ldAI => Sys2Proof.Machine.execLdAI s
  | .im2 k => Sys2Proof.Machine.execIm2 k s
  | .ldAR => Sys2Proof.Machine.execLdAR s
  | .rrd => Sys2Proof.Machine.execRrd s
  | .rld => Sys2Proof.Machine.execRld s
  | .inC => Sys2Proof.Machine.execInC s
  | .outC0 => Sys2Proof.Machine.execOutC0 s
  | .ldi => Sys2Proof.Machine.execLdi s
  | .cpi => Sys2Proof.Machine.execCpi s
  | .ini => Sys2Proof.Machine.execIni s
  | .outi => Sys2Proof.Machine.execOuti s
  | .ldd => Sys2Proof.Machine.execLdd s
  | .cpd => Sys2Proof.Machine.execCpd s
  | .ind => Sys2Proof.Machine.execInd s
  | .outd => Sys2Proof.Machine.execOutd s
  | .ldir => Sys2Proof.Machine.execLdir s
  | .cpir => Sys2Proof.Machine.execCpir s
  | .inir => Sys2Proof.Machine.execInir s
  | .otir => Sys2Proof.Machine.execOtir s
  | .lddr => Sys2Proof.Machine.execLddr s
  | .cpdr => Sys2Proof.Machine.execCpdr s
  | .indr => Sys2Proof.Machine.execIndr s
  | .otdr => Sys2Proof.Machine.execOtdr s
  | .ddFd x op => Sys2Proof.Machine.execDdFd x op s
  | .ignoredPrefix x => Sys2Proof.Machine.execIgnoredPrefix x s
  | .incHalf x h => Sys2Proof.Machine.execIncHalf x h s
  | .decHalf x h => Sys2Proof.Machine.execDecHalf x h s
  | .ldHalfN x h n => Sys2Proof.Machine.execLdHalfN x h n s
  | .ldPP x p p' => Sys2Proof.Machine.execLdPP x p p' s
  | .addAHalf x h => Sys2Proof.Machine.execAddAHalf x h s
  | .adcAHalf x h => Sys2Proof.Machine.execAdcAHalf x h s
  | .subHalf x h => Sys2Proof.Machine.execSubHalf x h s
  | .sbcAHalf x h => Sys2Proof.Machine.execSbcAHalf x h s
  | .andHalf x h => Sys2Proof.Machine.execAndHalf x h s
  | .xorHalf x h => Sys2Proof.Machine.execXorHalf x h s
  | .orHalf x h => Sys2Proof.Machine.execOrHalf x h s
  | .cpHalf x h => Sys2Proof.Machine.execCpHalf x h s
  | .addIxPp pp => Sys2Proof.Machine.execAddIxPp pp s
  | .ldIxNn nn => Sys2Proof.Machine.execLdIxNn nn s
  | .ldMNnIx nn => Sys2Proof.Machine.execLdMNnIx nn s
  | .incIx => Sys2Proof.Machine.execIncIx s
  | .ldIxMNn nn => Sys2Proof.Machine.execLdIxMNn nn s
  | .decIx => Sys2Proof.Machine.execDecIx s
  | .incMIx d => Sys2Proof.Machine.execIncMIx d s
  | .decMIx d => Sys2Proof.Machine.execDecMIx d s
  | .ldMIxN d n => Sys2Proof.Machine.execLdMIxN d n s
  | .ldRMIx r d => Sys2Proof.Machine.execLdRMIx r d s
  | .ldMIxR r d => Sys2Proof.Machine.execLdMIxR r d s
  | .addAMIx d => Sys2Proof.Machine.execAddAMIx d s
  | .adcAMIx d => Sys2Proof.Machine.execAdcAMIx d s
  | .subMIx d => Sys2Proof.Machine.execSubMIx d s
  | .sbcAMIx d => Sys2Proof.Machine.execSbcAMIx d s
  | .andMIx d => Sys2Proof.Machine.execAndMIx d s
  | .xorMIx d => Sys2Proof.Machine.execXorMIx d s
  | .orMIx d => Sys2Proof.Machine.execOrMIx d s
  | .cpMIx d => Sys2Proof.Machine.execCpMIx d s
  | .prefixDdCb => Sys2Proof.Machine.execPrefixDdCb s
  | .popIx => Sys2Proof.Machine.execPopIx s
  | .exMSpIx => Sys2Proof.Machine.execExMSpIx s
  | .pushIx => Sys2Proof.Machine.execPushIx s
  | .jpIx => Sys2Proof.Machine.execJpIx s
  | .ldSpIx => Sys2Proof.Machine.execLdSpIx s
  | .rotMIxR op r d => Sys2Proof.Machine.execRotMIxR op r d s
  | .rotMIx op d => Sys2Proof.Machine.execRotMIx op d s
  | .bitMIx b z d => Sys2Proof.Machine.execBitMIx b z d s
  | .resMIxR b r d => Sys2Proof.Machine.execResMIxR b r d s
  | .resMIx b d => Sys2Proof.Machine.execResMIx b d s
  | .setMIxR b r d => Sys2Proof.Machine.execSetMIxR b r d s
  | .setMIx b d => Sys2Proof.Machine.execSetMIx b d s
  | .addIyPp pp => Sys2Proof.Machine.execAddIyPp pp s
  | .ldIyNn nn => Sys2Proof.Machine.execLdIyNn nn s
  | .ldMNnIy nn => Sys2Proof.Machine.execLdMNnIy nn s
  | .incIy => Sys2Proof.Machine.execIncIy s
  | .ldIyMNn nn => Sys2Proof.Machine.execLdIyMNn nn s
  | .decIy => Sys2Proof.Machine.execDecIy s
  | .incMIy d => Sys2Proof.Machine.execIncMIy d s
  | .decMIy d => Sys2Proof.Machine.execDecMIy d s
  | .ldMIyN d n => Sys2Proof.Machine.execLdMIyN d n s
  | .ldRMIy r d => Sys2Proof.Machine.execLdRMIy r d s
  | .ldMIyR r d => Sys2Proof.Machine.execLdMIyR r d s
  | .addAMIy d => Sys2Proof.Machine.execAddAMIy d s
  | .adcAMIy d => Sys2Proof.Machine.execAdcAMIy d s
  | .subMIy d => Sys2Proof.Machine.execSubMIy d s
  | .sbcAMIy d => Sys2Proof.Machine.execSbcAMIy d s
  | .andMIy d => Sys2Proof.Machine.execAndMIy d s
  | .xorMIy d => Sys2Proof.Machine.execXorMIy d s
  | .orMIy d => Sys2Proof.Machine.execOrMIy d s
  | .cpMIy d => Sys2Proof.Machine.execCpMIy d s
  | .prefixFdCb => Sys2Proof.Machine.execPrefixFdCb s
  | .popIy => Sys2Proof.Machine.execPopIy s
  | .exMSpIy => Sys2Proof.Machine.execExMSpIy s
  | .pushIy => Sys2Proof.Machine.execPushIy s
  | .jpIy => Sys2Proof.Machine.execJpIy s
  | .ldSpIy => Sys2Proof.Machine.execLdSpIy s
  | .rotMIyR op r d => Sys2Proof.Machine.execRotMIyR op r d s
  | .rotMIy op d => Sys2Proof.Machine.execRotMIy op d s
  | .bitMIy b z d => Sys2Proof.Machine.execBitMIy b z d s
  | .resMIyR b r d => Sys2Proof.Machine.execResMIyR b r d s
  | .resMIy b d => Sys2Proof.Machine.execResMIy b d s
  | .setMIyR b r d => Sys2Proof.Machine.execSetMIyR b r d s
  | .setMIy b d => Sys2Proof.Machine.execSetMIy b d s

end Sys2Proof.Machine
end

