-- ==== Sys2Proof/Machine/Interrupt.lean ====
section
/-!
DEFINITION. The core's interrupt mechanism (60_exceptions.md part 1): which kind of step comes next, NMI and INT acceptance,
and the HALT idle step.
-/

namespace Sys2Proof.Machine

/-- The four kinds of core step (R430). -/
inductive StepKind where
  | nmi | int | idle | instruction
  deriving DecidableEq, Repr

/-- `accept_nmi` (R431). -/
def acceptsNmi (c : Module) : Bool := c.nmiPending && !c.prefixBlock

/-- `accept_int`, less its last clause: NMI goes first (R431, R434). -/
def acceptsInt (int : Bool) (c : Module) : Bool := int && c.iff1 && !c.eiDelay && !c.prefixBlock

/-- Step choice: the first that applies (R430). -/
def stepKind (int : Bool) (c : Module) : StepKind :=
  if acceptsNmi c then .nmi
  else if acceptsInt int c then .int
  else if c.halted then .idle
  else .instruction

/-- NMI acceptance: IFF2 is kept (R439). -/
def acceptNmi (s : State) : Result :=
  .next (s.takeInterrupt (fun c => { c with nmiPending := false, iff1 := false }) (fun _ => 0x0066) 11)

/-- What INT acceptance does to the flip-flops, and to F.PV right after LD A,I or LD A,R (R436, R442). -/
def prepareInt (bug : Bool) (c : Module) : Module :=
  { c with
    iff1 := false
    iff2 := false
    f := if c.ldair && bug then c.f &&& 0xFB else c.f }

/-- The bus byte is an RST opcode (R441). -/
def isRst (v : Byte) : Bool := v &&& 0xC7 == 0xC7

/-- The restart address an RST opcode on the bus names (R441). -/
def rstTarget (v : Byte) : Word := BitVec.zeroExtend 16 (v &&& 0x38)

/-- INT acceptance in IM 0 (R441): an RST on the bus, or a refusal. -/
def acceptIm0 (s : State) : Result :=
  if isRst s.intAckByte then
    .next (s.intAckDone.takeInterrupt (prepareInt s.cfg.ldairIffBug) (fun _ => rstTarget s.intAckByte) 13)
  else .refused .im0NotRst

/-- INT acceptance in IM 1, which reads no bus byte (R437). -/
def acceptIm1 (s : State) : Result :=
  .next (s.takeInterrupt (prepareInt s.cfg.ldairIffBug) (fun _ => 0x0038) 13)

/-- INT acceptance in IM 2: the handler's address is read from the table after the push (R440). -/
def acceptIm2 (s : State) : Result :=
  .next (s.intAckDone.takeInterrupt (prepareInt s.cfg.ldairIffBug)
    (fun pushed => pushed.readWord (pair pushed.core.i s.intAckByte)) 19)

/-- INT acceptance (R436). -/
def acceptInt (s : State) : Result :=
  match s.core.im with
  | .im0 => acceptIm0 s
  | .im1 => acceptIm1 s
  | .im2 => acceptIm2 s

/-- The HALT idle step: one M1 cycle (R446). -/
def haltIdle (s : State) : Result := s.done 4 { s.core with r := refresh s.core.r }

end Sys2Proof.Machine
end

