-- ==== Sys2Proof/Machine/CoreStep.lean ====
section
/-!
DEFINITION. The core step (R430), the module step (R456) and the board step (R451).
-/

namespace Sys2Proof.Machine

/-- An instruction step: fetch, then the effect (R430, R132). -/
def instructionStep (s : State) : Result :=
  match s.fetch with
  | some (i, s') => exec i s'
  | none => .fault .unimplementedOpcode

/-- One core step of the current module, given its INT level (R430). -/
def coreStep (int : Bool) (s : State) : Result :=
  match stepKind int s.core with
  | .nmi => acceptNmi s
  | .int => acceptInt s
  | .idle => haltIdle s
  | .instruction => instructionStep s

/-- Core steps until `left` T-states are spent, at most `n` of them after the first (R456). DESIGN CHOICE, log entry 26: all of
them see the INT level of the call, of which R456 says nothing; a board step makes one core step only. -/
def moduleSteps (int : Bool) : Nat → Nat → State → Result
  | 0, _, s => coreStep int s
  | n + 1, left, s =>
    match coreStep int s with
    | .next s' =>
      if left ≤ s'.core.t - s.core.t then .next s' else moduleSteps int n (left - (s'.core.t - s.core.t)) s'
    | .fault x => .fault x
    | .refused x => .refused x

/-- `step(maxT)` of the current module: at least one core step, none split (R456). A core step takes 4 T-states or more, so
`maxT` of them are enough. -/
def moduleStep (int : Bool) (maxT : Nat) (s : State) : Result := moduleSteps int (maxT - 1) maxT s

/-- The board step from the selection on: the module step with `maxT` = 1, then the end of the step (R451, R456). -/
def runOpened (s : State) : Result :=
  match moduleStep (s.intLevel s.cur) 1 s with
  | .next s' => .next s'.closed
  | .fault x => .fault x
  | .refused x => .refused x

/-- One board step: the host's inputs, then the reset, or the step of the module furthest behind (R451, R476). -/
def boardStep (s : State) : Result :=
  if s.takeInputs.resetReq then .next s.takeInputs.boardReset else runOpened s.takeInputs.opened

end Sys2Proof.Machine
end

