-- ==== Sys2Proof/Machine/Place.lean ====
section
/-!
DEFINITION. Placing an instruction's bytes from outside the machine, as the loader does (R505): into the ROM image or the RAM bank
behind each address.
-/

namespace Sys2Proof.Machine

/-- A byte stored behind an address, ROM or RAM. -/
def State.loadByte (s : State) (a : Word) (v : Byte) : State :=
  match s.backing a with
  | .rom k => { s with rom := s.rom.write (physical k.val (slotOffset a)) v }
  | .ram k => { s with heap := s.heap.write (physical k (slotOffset a)) v }

/-- Bytes stored from an address on. -/
def State.loadBytes (s : State) (a : Word) : List Byte → State
  | [] => s
  | v :: vs => (s.loadByte a v).loadBytes (a + 1) vs

/-- The next step is an instruction step of the selected module: no input, no reset, no acceptance, no HALT. -/
def State.fetchesNext (s : State) : Bool :=
  let c := s.mods.get s.select
  s.hostInputs.isEmpty && !s.resetReq && !c.halted &&
    (c.prefixBlock || (!c.nmiPending && !s.nmiLine && !c.iff1))

/-- The state with nothing in the way of a fetch by the module selected next (an empty batch of inputs comes first, and
`prefix_block` holds back both acceptances); the state itself when nothing is. -/
def State.readyToFetch (s : State) : State :=
  if s.fetchesNext then s
  else
    { s with
      resetReq := false
      hostInputs := [] :: s.hostInputs
      mods := s.mods.set s.select { s.mods.get s.select with halted := false, prefixBlock := true } }

/-- The first four bytes of a list filled up with zeros. -/
def fourBytes (bs : List Byte) : List Byte := (bs ++ [0, 0, 0, 0]).take 4

/-- Four bytes stored at the PC of the module selected next. -/
def State.placeBytes (s : State) (bs : List Byte) : State :=
  let c := s.mods.get s.select
  let placed := ({ s with cur := s.select }).loadBytes c.pc (fourBytes bs)
  { placed with cur := s.cur }

end Sys2Proof.Machine
end

