-- ==== Sys2Proof/Machine/Step.lean ====
section
/-!
DEFINITION. The machine's step, which is the board step, and the placing of an instruction where the next step fetches.
-/

namespace Sys2Proof.Machine

/-- One step of the machine: one board step (R451). -/
def step (s : State) : Host.Outcome State Fault Refusal := boardStep s

/-- The state with the instruction whose bits are `w` where the next step fetches, that step made to fetch (log entry 10). -/
def State.withFetchWord (s : State) (nbits w : Nat) : State :=
  s.readyToFetch.placeBytes (tableBytes nbits w)

end Sys2Proof.Machine
end

