-- ==== Sys2Proof/Machine/Observe.lean ====
section
/-!
DEFINITION. What the outside can read of the board, none of it part of a step: the video snapshot, the latch, the frame counter
and the raster, and the calls the board makes to its devices' hooks (R93, R453, R471, R472, R479 to R483).
-/

namespace Sys2Proof.Machine

/-- The logical page `readVideo` reads: 5, or 7 when bit 3 of the latch is set under the 128K map (R479). -/
def videoPage (g : Config) (c : Module) : Fin 8 :=
  match g.machineMap with
  | .spectrum128 => if c.port7FFD.getLsbD 3 then 7 else 5
  | .spectrum48 => 5
  | .flatBus => 5

/-- An answer to the host: a value, or a refusal. -/
abbrev Observed (α : Type) := Except Refusal α

/-- The board stands at a frame's completion: the frame has ended and the next has not begun (R454, R106). A reset, which completes
no frame, is none. -/
def State.atFrameEnd (s : State) : Bool := s.frameStartPending && !s.resetSeen

/-- `readVideo(offset)` of module m (R479), answered at a frame's completion only (R106). -/
def State.readVideo (s : State) (m : ModuleId) (offset : Nat) : Observed Byte :=
  if 0x1AFF < offset then .error .videoOffset
  else if s.atFrameEnd then .ok (s.heapByte (physical (heapBank s.cfg m (videoPage s.cfg (s.mods.get m))) offset))
  else .error .midFrame

/-- `read7FFD()`: the host's read of a latch (R93). -/
def State.read7FFD (s : State) (m : ModuleId) : Byte := (s.mods.get m).port7FFD

/-- The test harness's read of the RETI-detection flag (R56). -/
def State.readReti (s : State) (m : ModuleId) : Bool := (s.mods.get m).retiSeen

/-- `frame_t`, the least counter of an active module (R453). -/
def State.frameT (s : State) : Nat :=
  let t (m : ModuleId) : Nat := (s.mods.get m).t
  match s.cfg.boardMode with
  | .classic => t .m0
  | .zxpoly => min (min (min (t .m0) (t .m1)) (t .m2)) (t .m3)

/-- `line(t)`, clamped past the frame's end (R471). -/
def rasterLine (p : TimingProfile) (t : Nat) : Nat := min (t / p.tstatesPerLine) (p.linesPerFrame - 1)

/-- `col(t)` (R471). -/
def rasterCol (p : TimingProfile) (t : Nat) : Nat := t % p.tstatesPerLine

/-- The line shows paper (R472). -/
def isPaperLine (p : TimingProfile) (line : Nat) : Bool :=
  decide (p.firstPaperLine ≤ line) && decide (line < p.firstPaperLine + p.paperLines)

/-- A device of the registry (R480, R486). -/
inductive Device where
  | keyboard | videoLatch | outside (k : Nat)
  deriving DecidableEq, Repr

/-- The registry in its order (R480). -/
def registry (g : Config) : List Device :=
  [.keyboard, .videoLatch] ++ (List.range g.externals.length).map Device.outside

/-- `getNotificationFlags()`: the modelled devices have none, the AY pair POSTSTEP, the others what the configuration says (R481). -/
def notificationFlags (g : Config) : Device → NotificationFlags
  | .keyboard => 0
  | .videoLatch => 0
  | .outside k => match g.externals[k]? with
    | some d => d.flags
    | none => 0

/-- The devices whose `preStep` the board calls, in their order (R481, R482). -/
def preStepDevices (g : Config) : List Device := (registry g).filter fun d => (notificationFlags g d).getLsbD 0

/-- The devices whose `postStep` the board calls, in their order (R481, R483). -/
def postStepDevices (g : Config) : List Device := (registry g).filter fun d => (notificationFlags g d).getLsbD 1

/-- The arguments of `preStep` (R482). -/
structure PreStepCall where
  frameTstates : Nat
  signalReset : Bool
  tstatesIntReached : Bool
  wallclockInt : Bool
  deriving DecidableEq, Repr

/-- What the board step that starts at `s` passes to each `preStep`; none when it is a reset (R451, R476, R482). -/
def State.preStepCall (s : State) : Option PreStepCall :=
  let s0 := s.takeInputs
  let s1 := s0.opened
  if s0.resetReq then none
  else some ⟨(s1.mods.get s1.cur).t, s0.resetSeen, s1.intLevel s1.cur, s1.wallInt.get s1.cur⟩

/-- What a module step from `s` to `s'` passes to each `postStep`: the T-states it spent (R483). -/
def postStepCall (s s' : State) : Nat := s'.core.t - s.core.t

end Sys2Proof.Machine
end

