-- ==== Sys2Proof/Safety.lean ====
section
/-!
DEFINITION. What counts as a sound state, and the terms in which statements say what a step does: how it ends, what it
changes, which bytes it stores, and the flag rules of the families as relations between values.
-/

namespace Sys2Proof.Machine

/-! ### Sound states -/

/-- One module's invariant: Q is 0 or F (R51); the EI delay comes with both flip-flops set (R52, R278); at most one of the
three marks of the last step is set (R430). -/
def Module.sound (c : Module) : Bool :=
  (c.q == 0 || c.q == c.f) && (!c.eiDelay || (c.iff1 && c.iff2)) &&
    !(c.eiDelay && c.prefixBlock) && !(c.eiDelay && c.ldair) && !(c.prefixBlock && c.ldair)

/-- Both byte stores are in canonical form and hold cells of existing banks and images only, and the map names existing banks
only (R63, R91, R96). -/
def State.memorySound (s : State) : Bool :=
  s.cfg.heapMapFits && s.heap.wf && s.heap.below (s.cfg.heapBanks * 0x4000) && s.rom.wf && s.rom.below (3 * 0x4000)

/-- The board's invariant: sound memory and modules, one border entry per line (R62), no reset left waiting (R451), bits 7..5 of
the joystick bytes 0 (R490), an active module stepped last (R450). -/
def State.sound (s : State) : Bool :=
  s.memorySound && s.mods.m0.sound && s.mods.m1.sound && s.mods.m2.sound && s.mods.m3.sound &&
    s.borderLine.length == s.cfg.timing.linesPerFrame && !s.resetReq &&
    s.joyLive &&& 0xE0 == 0 && s.joyVisible &&& 0xE0 == 0 && isActive s.cfg s.cur

/-- The counters of the active modules: the furthest behind has not ended its frame, none is past the frame's end by a step
(23 T-states) or more (R60), and no two are more than a step apart (R452, log entry 13). -/
def State.countersSound (s : State) : Prop :=
  (∃ m, isActive s.cfg m = true ∧ (s.mods.get m).t < tstatesPerFrame s.cfg.timing) ∧
    (∀ m, isActive s.cfg m = true → (s.mods.get m).t < tstatesPerFrame s.cfg.timing + 23) ∧
    (∀ m n, isActive s.cfg m = true → isActive s.cfg n = true → (s.mods.get m).t ≤ (s.mods.get n).t + 23)

/-! ### Encodings -/

/-- The instruction's bytes, and how many of them M1 cycles fetch: the encoder gives the bytes, and the decoder reads the
instruction from them whatever follows (R121, R46). -/
def Encoded (i : Instr) (bytes : List Byte) (m1 : Nat) : Prop :=
  encode i = bytes ∧ (∀ rest, decode (bytes ++ rest) = some (i, rest)) ∧ m1Count i = m1

/-- An opcode byte by its number. -/
def op8 (n : Nat) : Byte := BitVec.ofNat 8 n

/-- The low byte of a word, then the high byte (R84). -/
def lowHigh (nn : Word) : List Byte := [BitVec.ofNat 8 nn.toNat, BitVec.ofNat 8 (nn.toNat / 256)]

/-! ### How a step ends and what it changes -/

/-- `c` with the fields every step's bookkeeping writes taken from `c'`: the counter, Q and the three marks (R430). -/
def Module.stepped (c c' : Module) : Module :=
  { c with t := c'.t, q := c'.q, eiDelay := c'.eiDelay, prefixBlock := c'.prefixBlock, ldair := c'.ldair }

/-- A step of `n` T-states that leaves no mark; `wrote` says its rule writes a flag by formula or constant (R430, R51). -/
def EndsStep (c c' : Module) (n : Nat) (wrote : Bool) : Prop :=
  c'.t = c.t + n ∧ c'.q = (if wrote then c'.f else 0) ∧ c'.eiDelay = false ∧ c'.prefixBlock = false ∧ c'.ldair = false

/-- Nothing changes outside the stepping module, and every address reads as before. -/
def Quiet (s s' : State) : Prop := s' = s.setCore s'.core ∧ ∀ b, s'.readByte b = s.readByte b

/-- The address is backed by RAM (R91). -/
def State.isRam (s : State) (a : Word) : Bool :=
  match s.backing a with
  | .ram _ => true
  | .rom _ => false

/-- The two addresses name one physical byte (R91, R97). -/
def State.sameByte (s : State) (a b : Word) : Bool := s.backing a == s.backing b && slotOffset a == slotOffset b

/-- The physical address of the heap byte a logical address names, none over ROM (R91). -/
def State.heapAddress (s : State) (a : Word) : Option Nat :=
  match s.backing a with
  | .ram bank => some (bank * 0x4000 + slotOffset a)
  | .rom _ => none

/-- The heap of `s'` is that of `s` but for the bytes the addresses of `stored` name: every other byte of every bank, mapped by
any module or by none, is as before, and where all of `stored` lies over ROM the whole heap is (R91, R99). -/
def HeapKept (s s' : State) (stored : List Word) : Prop :=
  (∀ k, (∀ a ∈ stored, s.heapAddress a ≠ some k) → s'.heap.read k = s.heap.read k) ∧
    ((∀ a ∈ stored, s.heapAddress a = none) → s'.heap = s.heap)

/-- Nothing changes outside the stepping module but the RAM byte at `a`, which becomes `v`: every address of another physical
byte reads as before, over ROM so does `a`, and no other byte of the heap changes (R91, R99). -/
def Stores (s s' : State) (a : Word) (v : Byte) : Prop :=
  s' = ({ s with heap := s'.heap }).setCore s'.core ∧
    (∀ b, s'.readByte b = if s.isRam a && s.sameByte a b then v else s.readByte b) ∧
    HeapKept s s' [a]

/-- Nothing changes outside the stepping module but the RAM bytes at `a` and `a + 1`, which become `lo` and `hi` (R15, R99). -/
def StoresTwo (s s' : State) (a : Word) (lo hi : Byte) : Prop :=
  s' = ({ s with heap := s'.heap }).setCore s'.core ∧
    (∀ b, s'.readByte b =
      if s.isRam a && s.sameByte a b then lo
      else if s.isRam (a + 1) && s.sameByte (a + 1) b then hi
      else s.readByte b) ∧
    HeapKept s s' [a, a + 1]

/-- From every state `exec` answers a next state for the instruction, its step takes `n` T-states and leaves no mark, and
`post` relates the state before to the state after. -/
def Runs (i : Instr) (n : Nat) (wrote : Bool) (post : State → State → Prop) : Prop :=
  ∀ s, ∃ s', exec i s = .next s' ∧ EndsStep s.core s'.core n wrote ∧ post s s'

/-- The same with a number of T-states that depends on the state before. -/
def RunsFor (i : Instr) (n : State → Nat) (wrote : Bool) (post : State → State → Prop) : Prop :=
  ∀ s, ∃ s', exec i s = .next s' ∧ EndsStep s.core s'.core (n s) wrote ∧ post s s'

/-! ### Flag rules -/

/-- S, Z, Y and X of a byte (R20, `SZXY`). -/
def FlagsSZXY (r f : Byte) : Prop :=
  flagS f = r.getLsbD 7 ∧ flagZ f = decide (r = 0) ∧ flagY f = r.getLsbD 5 ∧ flagX f = r.getLsbD 3

/-- S, Z and P/V are those of `f0`. -/
def FlagsKeptSZP (f0 f : Byte) : Prop := flagS f = flagS f0 ∧ flagZ f = flagZ f0 ∧ flagP f = flagP f0

/-- The value of a carry. -/
def carryNat (c : Bool) : Nat := if c then 1 else 0

/-- The adder (R241): `r` is the result of `a + v + cin`, `f` its flags. Overflow is that of the signed sum. -/
def AdderRule (a v : Byte) (cin : Bool) (r f : Byte) : Prop :=
  r.toNat = (a.toNat + v.toNat + carryNat cin) % 256 ∧ FlagsSZXY r f ∧
    flagH f = decide (a.toNat % 16 + v.toNat % 16 + carryNat cin > 15) ∧
    flagP f = (a.getLsbD 7 == v.getLsbD 7 && r.getLsbD 7 != a.getLsbD 7) ∧
    (flagP f = true ↔ a.toInt + v.toInt + carryNat cin < -128 ∨ 127 < a.toInt + v.toInt + carryNat cin) ∧
    flagN f = false ∧ flagC f = decide (a.toNat + v.toNat + carryNat cin > 255)

/-- The subtractor (R241), with Y and X left out: `r` is the result of `a - v - cin`, `f` its flags. -/
def SubtractorRule (a v : Byte) (cin : Bool) (r f : Byte) : Prop :=
  (r.toNat : Int) = ((a.toNat : Int) - v.toNat - carryNat cin) % 256 ∧
    flagS f = r.getLsbD 7 ∧ flagZ f = decide (r = 0) ∧
    flagH f = decide ((a.toNat % 16 : Int) - (v.toNat % 16 : Nat) - carryNat cin < 0) ∧
    flagP f = (a.getLsbD 7 != v.getLsbD 7 && r.getLsbD 7 != a.getLsbD 7) ∧
    (flagP f = true ↔ a.toInt - v.toInt - carryNat cin < -128 ∨ 127 < a.toInt - v.toInt - carryNat cin) ∧
    flagN f = true ∧ flagC f = decide ((a.toNat : Int) - v.toNat - carryNat cin < 0)

/-- Y and X from a byte. -/
def FlagsYX (v f : Byte) : Prop := flagY f = v.getLsbD 5 ∧ flagX f = v.getLsbD 3

/-- How many bits of a byte are set. -/
def bitCount (v : Byte) : Nat := ((List.range 8).filter fun k => v.getLsbD k).length

/-- P/V is the parity of a byte: 1 when the number of set bits is even (R13). -/
def ParityRule (v f : Byte) : Prop := flagP f = decide (bitCount v % 2 = 0)

/-- The logic flags (R242). -/
def LogicRule (r : Byte) (h : Bool) (f : Byte) : Prop :=
  FlagsSZXY r f ∧ flagH f = h ∧ ParityRule r f ∧ flagN f = false ∧ flagC f = false

/-- H, C and the rest of a 16-bit add (R300): `f0` is F before. -/
def Add16Rule (a b r : Word) (f0 f : Byte) : Prop :=
  r.toNat = (a.toNat + b.toNat) % 65536 ∧ FlagsKeptSZP f0 f ∧
    flagH f = decide (a.toNat % 4096 + b.toNat % 4096 > 4095) ∧ flagN f = false ∧
    flagC f = decide (a.toNat + b.toNat > 65535) ∧ flagY f = r.getLsbD 13 ∧ flagX f = r.getLsbD 11

/-- The table of R321: result and carry out of `rot[y]` for operand `v` and carry in `c`, by arithmetic on values. -/
def RotRule (op : RotOp) (v : Byte) (c : Bool) (r : Byte) (co : Bool) : Prop :=
  match op with
  | .rlc => r.toNat = v.toNat * 2 % 256 + v.toNat / 128 ∧ co = v.getLsbD 7
  | .rrc => r.toNat = v.toNat / 2 + v.toNat % 2 * 128 ∧ co = v.getLsbD 0
  | .rl => r.toNat = v.toNat * 2 % 256 + carryNat c ∧ co = v.getLsbD 7
  | .rr => r.toNat = v.toNat / 2 + carryNat c * 128 ∧ co = v.getLsbD 0
  | .sla => r.toNat = v.toNat * 2 % 256 ∧ co = v.getLsbD 7
  | .sra => r.toInt = v.toInt / 2 ∧ co = v.getLsbD 0
  | .sll => r.toNat = v.toNat * 2 % 256 + 1 ∧ co = v.getLsbD 7
  | .srl => r.toNat = v.toNat / 2 ∧ co = v.getLsbD 0

end Sys2Proof.Machine
end

