-- ==== Sys2Proof/Certificates/Slice0/Obligations.lean ====
section
/-!
DEFINITION. The statements for the provers, from the numbered rules of the spec.
-/

open Sys2Proof Sys2Proof.Machine

/-! ### Decoding and encoding -/

/-- R132, R134(d), R285, R7: every well-formed instruction that is no lone or ignored prefix is what the decoder reads from its
bytes, whatever follows, so that every operand keeps every value its encoding has; a DD or FD byte with DD, ED or FD after it
is an ignored prefix of one byte, and the byte after it stays. The last clause is the model's own (DESIGN CHOICE, log entry 11): a
list that ends after a prefix is the lone-prefix term. -/
def Obligations.DecodeOfEncode : Prop :=
  (∀ (i : Instr) (rest : List Byte), i.wellFormed = true → i.isLonePrefix = false → i.isIgnoredPrefix = false →
    decode (encode i ++ rest) = some (i, rest)) ∧
  (∀ (x : IdxReg) (b : Byte) (rest : List Byte), cancelsPrefix b = true →
    decode (encode (.ignoredPrefix x) ++ b :: rest) = some (.ignoredPrefix x, b :: rest)) ∧
  (∀ i : Instr, i.isLonePrefix = true → decode (encode i) = some (i, []))

/-- R132, R120, R7: four bytes always decode, to a well-formed instruction that is no lone prefix and takes 1 to 4 of them. -/
def Obligations.DecoderTotal : Prop :=
  ∀ b0 b1 b2 b3 : Byte, ∃ i rest, decode [b0, b1, b2, b3] = some (i, rest) ∧ i.wellFormed = true ∧
    i.isLonePrefix = false ∧ rest.length < 4

/-- R122, R134: no two readings of one list of bytes: what the decoder reads encodes to exactly the bytes it took. -/
def Obligations.EncodeOfDecode : Prop :=
  ∀ (bs rest : List Byte) (i : Instr), decode bs = some (i, rest) → encode i ++ rest = bs

/-- R126 to R131: words written out from the encodings decode to the instructions they stand for. -/
def Obligations.WordsDecode : Prop :=
  decode [0x78] = some (.ldRR .a .b, []) ∧
    decode [0xDD, 0x36, 0xFF, 0x07] = some (.ldMIxN 0xFF 0x07, []) ∧
    decode [0xED, 0x5B, 0x00, 0x90] = some (.ldDdMNn .de 0x9000, []) ∧
    decode [0xE3] = some (.exMSpHl, []) ∧
    decode [0xED, 0xB8] = some (.lddr, []) ∧
    decode [0xFD, 0x9D] = some (.sbcAHalf .iy .lo, []) ∧
    decode [0xED, 0x7C] = some (.neg 7, []) ∧
    decode [0xDD, 0x29] = some (.addIxPp .xy, []) ∧
    decode [0xFD, 0xCB, 0xFF, 0x31] = some (.rotMIyR .sll .c 0xFF, []) ∧
    decode [0xCB, 0xD8] = some (.setR 3 .b, []) ∧
    decode [0xEA, 0x34, 0x12] = some (.jpCcNn .pe 0x1234, []) ∧
    decode [0xED, 0x79] = some (.outCR .a, []) ∧
    decode [0xDD, 0x76] = some (.ddFd .ix .halt, [])

/-! ### The machine as a whole -/

/-- What a board step makes of its core step's answer: the end of the board step (R451). -/
def thenClosed : Result → Result
  | .next t => .next t.closed
  | .fault x => .fault x
  | .refused x => .refused x

/-- The TR-DOS flag that `P_TRDOS_HOOK` gives at an opcode fetch at PC (R98; a free one under the open hook, log entry 8). -/
def hookFlag (s : State) : Bool :=
  match s.cfg.trdosHook with
  | .identity => s.core.trdos
  | .given tree => HookTree.value s.cur s.core s.core.pc tree
  | .free => Config.freeBit s.draws

/-- The state after one `FetchOpcode()` (R16, R98). -/
def fetchedOne (s : State) : State :=
  ({ s with draws := s.draws + if s.cfg.trdosHook = TrdosHook.free then 1 else 0 }).mapCore fun c =>
    { c with trdos := hookFlag s, pc := c.pc + 1, r := (c.r &&& 0x80) ||| ((c.r + 1) &&& 0x7F) }

/-- The byte that `FetchOpcode()` returns, read under the flag the hook gives (R16, R98). -/
def fetchedByte (s : State) : Byte := (s.mapCore fun c => { c with trdos := hookFlag s }).readByte s.core.pc

/-- The state with PC past the operand bytes of the two at PC that `rest` does not keep (R132). -/
def pastOperands (s : State) (rest : List Byte) : State :=
  s.mapCore fun c => { c with pc := c.pc + BitVec.ofNat 16 (2 - rest.length) }

/-- R430, R451, R456, R132, R16, R35, R46, R98. A board step with no reset is the core step, of whatever kind, of the module selected at
its INT level, and then the end of the board step. Where that is an instruction step and no hook changes the TR-DOS flag, it is
`exec` of the instruction the bytes at PC decode to, PC past its bytes and R counting its M1 cycles. Under any hook the flag is
evaluated at each opcode fetch: one byte, or two after CB, ED and after DD or FD unless the byte looked at makes the prefix an
ignored one. That a flag changing after the look-ahead may make the second byte DD, ED or FD too, and that both are then an
ignored prefix, is the model's choice (log entry 24); that operand bytes and the look-ahead see the flag of the fetch before is log
entry 8. -/
def Obligations.StepRunsInstruction : Prop :=
  (∀ s : State, s.takeInputs.resetReq = false →
    step s = thenClosed (coreStep (s.takeInputs.opened.intLevel s.takeInputs.opened.cur) s.takeInputs.opened)) ∧
  (∀ (s : State) (i : Instr) (rest : List Byte), s.takeInputs.resetReq = false →
    stepKind (s.takeInputs.opened.intLevel s.takeInputs.opened.cur) s.takeInputs.opened.core = .instruction →
    s.cfg.trdosHook = .identity →
    decode (s.takeInputs.opened.bytesAtPc 4) = some (i, rest) →
    step s = thenClosed (exec i (s.takeInputs.opened.mapCore fun c =>
      { c with pc := c.pc + BitVec.ofNat 16 (4 - rest.length), r := refreshN (m1Count i) c.r }))) ∧
  (∀ (s : State) (i : Instr) (rest : List Byte), s.takeInputs.resetReq = false →
    stepKind (s.takeInputs.opened.intLevel s.takeInputs.opened.cur) s.takeInputs.opened.core = .instruction →
    let b := fetchedByte s.takeInputs.opened
    let f := fetchedOne s.takeInputs.opened
    let ignored := (b = 0xDD ∨ b = 0xFD) ∧ f.readByte f.core.pc ∈ ([0xDD, 0xED, 0xFD] : List Byte)
    (b ∉ ([0xCB, 0xDD, 0xED, 0xFD] : List Byte) → decode (b :: f.bytesAtPc 2) = some (i, rest) →
      step s = thenClosed (exec i (pastOperands f rest))) ∧
    (ignored → step s = thenClosed (exec (.ignoredPrefix (if b = 0xDD then .ix else .iy)) f)) ∧
    (b ∈ ([0xCB, 0xDD, 0xED, 0xFD] : List Byte) → ¬ ignored →
      decode (b :: fetchedByte f :: (fetchedOne f).bytesAtPc 2) = some (i, rest) →
      step s = thenClosed (exec i (pastOperands (fetchedOne f) rest))))

/-- R435, R18, R7: a step of any state answers a next state, or it is the refusal of an IM 0 acknowledge whose bus byte is no RST
opcode, and that only when an INT is accepted. -/
def Obligations.StepNeverFaults : Prop :=
  ∀ s : State, (∃ t, step s = .next t) ∨
    (step s = .refused .im0NotRst ∧
      stepKind (s.takeInputs.opened.intLevel s.takeInputs.opened.cur) s.takeInputs.opened.core = .int ∧
      s.takeInputs.opened.core.im = .im0 ∧ isRst s.takeInputs.opened.intAckByte = false)

/-- The board's invariant is kept by every step: memory stays in canonical form within the banks and images, each module's Q is 0
or F, the EI delay comes with both flip-flops set, no two marks are set at once, the border has one entry per line, the
joystick's bits 7..5 are 0, no reset waits. -/
def Obligations.SoundKept : Prop :=
  ∀ s t : State, s.sound = true → step s = .next t → t.sound = true

/-- The invariant holds right after reset; and a board can be constructed with any configuration whose heap map names existing banks
only, State.reset being that of the default one, and is then sound; no other can (R96). -/
def Obligations.ResetIsSound : Prop :=
  State.reset.sound = true ∧ construct Config.default = .ok State.reset ∧
  (∀ g : Config, (∃ (m : ModuleId) (page : Fin 8), g.heapBanks ≤ (g.heapMap.get m)[page]) → construct g = .error .heapMap) ∧
  (∀ g : Config, (∀ (m : ModuleId) (page : Fin 8), (g.heapMap.get m)[page] < g.heapBanks) →
    ∃ s, construct g = .ok s ∧ s.sound = true ∧ s.cfg = g)

/-- R60, R452: the counters stay within a frame and a step, and no two active modules are more than 23 T-states apart. -/
def Obligations.CountersKept : Prop :=
  ∀ s t : State, 23 ≤ tstatesPerFrame s.cfg.timing → s.countersSound → step s = .next t → t.countersSound

/-- R463, R521: every instruction spends 4 to 23 T-states. -/
def Obligations.InstructionTimes : Prop :=
  ∀ (i : Instr) (s t : State), exec i s = .next t → s.core.t + 4 ≤ t.core.t ∧ t.core.t ≤ s.core.t + 23

/-- The instruction inside a DD/FD delay form; any other instruction itself. -/
def bareInstr : Instr → Instr
  | .ddFd _ op => op
  | i => i

/-- R430, R51 to R53, R55: after an instruction the EI delay is set exactly for EI, the prefix block exactly for an ignored
prefix, `ldair` exactly for LD A,I and LD A,R, and Q is F or 0. A lone prefix stands for the instruction still to be
fetched and is left out. -/
def Obligations.EndOfStepMarks : Prop :=
  ∀ (i : Instr) (s t : State), i.isLonePrefix = false → exec i s = .next t →
    t.core.eiDelay = decide (bareInstr i = .ei) ∧
    t.core.prefixBlock = i.isIgnoredPrefix ∧
    t.core.ldair = decide (i = .ldAI ∨ i = .ldAR) ∧
    (t.core.q = t.core.f ∨ t.core.q = 0)

/-- R32, R36 to R38, R46, R49, R54, R56, R98: whatever the instruction, the shadow registers, I, the flip-flops, IM, R, `halted`,
`reti_seen`, the NMI latch and the TR-DOS flag change only under the instructions the rules name. -/
def Obligations.SpecialRegistersKept : Prop :=
  ∀ (i : Instr) (s t : State), i.isLonePrefix = false → exec i s = .next t →
    (bareInstr i ≠ .exAfAf → t.core.a' = s.core.a' ∧ t.core.f' = s.core.f') ∧
    (bareInstr i ≠ .exx → t.core.b' = s.core.b' ∧ t.core.c' = s.core.c' ∧ t.core.d' = s.core.d' ∧
      t.core.e' = s.core.e' ∧ t.core.h' = s.core.h' ∧ t.core.l' = s.core.l') ∧
    (i ≠ .ldIA → t.core.i = s.core.i) ∧
    (i ≠ .ldRA → t.core.r = s.core.r) ∧
    ((∀ k, i ≠ .im0 k) → (∀ k, i ≠ .im1 k) → (∀ k, i ≠ .im2 k) → t.core.im = s.core.im) ∧
    (bareInstr i ≠ .ei → bareInstr i ≠ .di → (∀ y, i ≠ .retn y) → i ≠ .reti → t.core.iff1 = s.core.iff1) ∧
    (bareInstr i ≠ .ei → bareInstr i ≠ .di → t.core.iff2 = s.core.iff2) ∧
    (bareInstr i ≠ .halt → t.core.halted = s.core.halted) ∧
    (i ≠ .reti → t.core.retiSeen = s.core.retiSeen) ∧
    t.core.nmiPending = s.core.nmiPending ∧ t.core.nmiPrev = s.core.nmiPrev ∧ t.core.trdos = s.core.trdos

/-- R30, R457: no instruction of one module changes another module, nor the board outside RAM, the border and the free values
taken; lone prefixes included. -/
def Obligations.ModulesIsolated : Prop :=
  ∀ (i : Instr) (s t : State), exec i s = .next t →
    (∀ m, m ≠ s.cur → t.mods.get m = s.mods.get m) ∧
    t = { s with
      mods := t.mods, heap := t.heap, borderCur := t.borderCur, borderLine := t.borderLine, draws := t.draws }

/-- R65, R99: no step, a reset included, changes the configuration or a ROM image. -/
def Obligations.RomAndConfigFixed : Prop :=
  ∀ s t : State, step s = .next t → t.rom = s.rom ∧ t.cfg = s.cfg

/-- R61, R94: while the lock bit of its latch is set, no instruction changes a module's latch; and no instruction changes it under
a map with no paging. -/
def Obligations.LatchLocked : Prop :=
  ∀ (i : Instr) (s t : State), exec i s = .next t →
    (s.core.port7FFD.getLsbD 5 = true ∨ s.cfg.machineMap ≠ .spectrum128) → t.core.port7FFD = s.core.port7FFD

/-! ### Interrupts, HALT and reset -/

/-- R430, R431, R434: a core step is the first that applies of NMI acceptance, INT acceptance, HALT idle and instruction; IFF2
gates nothing, the EI delay holds back INT only, an ignored prefix both. -/
def Obligations.StepChoice : Prop :=
  ∀ (int : Bool) (s : State),
    (s.core.nmiPending = true → s.core.prefixBlock = false → coreStep int s = acceptNmi s) ∧
    ((s.core.nmiPending = false ∨ s.core.prefixBlock = true) →
      (int = true → s.core.iff1 = true → s.core.eiDelay = false → s.core.prefixBlock = false →
        coreStep int s = acceptInt s) ∧
      ((int = false ∨ s.core.iff1 = false ∨ s.core.eiDelay = true ∨ s.core.prefixBlock = true) →
        (s.core.halted = true → coreStep int s = haltIdle s) ∧
        (s.core.halted = false → coreStep int s = instructionStep s)))

/-- R439: NMI acceptance. -/
def Obligations.NmiAccepted : Prop :=
  ∀ (int : Bool) (s : State), s.core.nmiPending = true → s.core.prefixBlock = false →
    ∃ t, coreStep int s = .next t ∧ EndsStep s.core t.core 11 false ∧
      StoresTwo s t (s.core.sp - 2) (loByte s.core.pc) (hiByte s.core.pc) ∧
      t.core = { s.core.stepped t.core with
        nmiPending := false
        halted := false
        r := (s.core.r &&& 0x80) ||| ((s.core.r + 1) &&& 0x7F)
        iff1 := false
        sp := s.core.sp - 2
        pc := 0x0066
        memptr := 0x0066 }

/-- The module after an INT acceptance to `target`, but for the step's bookkeeping (R436, R442). -/
def intTaken (bug : Bool) (c c' : Module) (target : Word) : Module :=
  { c.stepped c' with
    halted := false
    r := (c.r &&& 0x80) ||| ((c.r + 1) &&& 0x7F)
    iff1 := false
    iff2 := false
    f := if c.ldair = true ∧ bug = true then c.f &&& 0xFB else c.f
    sp := c.sp - 2
    pc := target
    memptr := target }

/-- An INT is accepted at this boundary (R431). -/
def IntComes (int : Bool) (c : Module) : Prop :=
  int = true ∧ c.iff1 = true ∧ c.eiDelay = false ∧ c.prefixBlock = false ∧ c.nmiPending = false

/-- R436, R437, R442: INT acceptance in IM 1, 13 T-states, to 0x0038. -/
def Obligations.Im1Accepted : Prop :=
  ∀ (int : Bool) (s : State), IntComes int s.core → s.core.im = .im1 →
    ∃ t, coreStep int s = .next t ∧ EndsStep s.core t.core 13 false ∧
      StoresTwo s t (s.core.sp - 2) (loByte s.core.pc) (hiByte s.core.pc) ∧
      t.core = intTaken s.cfg.ldairIffBug s.core t.core 0x0038

/-- The byte an acknowledge reads from the bus, one byte or a fresh free value (R83, `P_INTACK_BUS`). -/
def busByte (s : State) : Byte :=
  match s.cfg.intAck with
  | .fixed v => v
  | .draw => Config.freeByte s.draws

/-- The state after the acknowledge's bus read: one more free value taken where the byte is one (R83). -/
def busRead (s : State) : State := { s with draws := s.draws + if s.cfg.intAck = .draw then 1 else 0 }

/-- R436, R440, R442, R83: INT acceptance in IM 2, 19 T-states, to the word in the table at (I << 8) | bus byte, read after the push. -/
def Obligations.Im2Accepted : Prop :=
  ∀ (int : Bool) (s : State), IntComes int s.core → s.core.im = .im2 →
    ∃ t, coreStep int s = .next t ∧ EndsStep s.core t.core 19 false ∧
      StoresTwo (busRead s) t (s.core.sp - 2) (loByte s.core.pc) (hiByte s.core.pc) ∧
      t.core = intTaken s.cfg.ldairIffBug s.core t.core
        (pair (t.readByte (pair s.core.i (busByte s) + 1)) (t.readByte (pair s.core.i (busByte s))))

/-- R436, R441, R442, R83: INT acceptance in IM 0: an RST opcode on the bus is a restart in 13 T-states, any other byte a refusal. -/
def Obligations.Im0Accepted : Prop :=
  ∀ (int : Bool) (s : State), IntComes int s.core → s.core.im = .im0 →
    (busByte s &&& 0xC7 ≠ 0xC7 → coreStep int s = .refused .im0NotRst) ∧
    (busByte s &&& 0xC7 = 0xC7 → ∃ t, coreStep int s = .next t ∧ EndsStep s.core t.core 13 false ∧
      StoresTwo (busRead s) t (s.core.sp - 2) (loByte s.core.pc) (hiByte s.core.pc) ∧
      t.core = intTaken s.cfg.ldairIffBug s.core t.core (BitVec.ofNat 16 (busByte s &&& 0x38).toNat))

/-- R511, R512, R442: right after EI no INT is accepted, right after an ignored prefix neither INT nor NMI; and an INT accepted
right after LD A,I or LD A,R under the bug leaves P/V 0. -/
def Obligations.BoundariesAfterMarks : Prop :=
  (∀ int s t, exec .ei s = .next t → t.core.nmiPending = false →
    coreStep int t = haltIdle t ∨ coreStep int t = instructionStep t) ∧
  (∀ x int s t, exec (.ignoredPrefix x) s = .next t → coreStep int t = haltIdle t ∨ coreStep int t = instructionStep t) ∧
  (∀ i int s t u, (i = .ldAI ∨ i = .ldAR) → exec i s = .next t → IntComes int t.core →
    t.cfg.ldairIffBug = true → coreStep int t = .next u → flagP u.core.f = false)

/-- R446, R449, R515: a halted core that accepts neither NMI nor INT spends 4 T-states and counts R, and stays halted; nothing else
changes. -/
def Obligations.HaltIdles : Prop :=
  ∀ (int : Bool) (s : State), s.core.halted = true →
    (s.core.nmiPending = false ∨ s.core.prefixBlock = true) →
    (int = false ∨ s.core.iff1 = false ∨ s.core.eiDelay = true ∨ s.core.prefixBlock = true) →
    ∃ t, coreStep int s = .next t ∧ EndsStep s.core t.core 4 false ∧ Quiet s t ∧
      t.core = { s.core.stepped t.core with r := (s.core.r &&& 0x80) ||| ((s.core.r + 1) &&& 0x7F) }

/-- R445, R439, R384: a RETN right after an NMI acceptance, with the stack in RAM, gives back PC, SP and IFF1 = IFF2, IFF2 kept. -/
def Obligations.RetnUndoesNmi : Prop :=
  ∀ (int : Bool) (s t : State) (y : BitVec 3),
    s.isRam (s.core.sp - 1) = true → s.isRam (s.core.sp - 2) = true →
    s.core.nmiPending = true → s.core.prefixBlock = false → coreStep int s = .next t →
    ∃ u, exec (.retn y) t = .next u ∧ u.core.pc = s.core.pc ∧ u.core.sp = s.core.sp ∧
      u.core.iff1 = s.core.iff2 ∧ u.core.iff2 = s.core.iff2

/-- A module after reset but for the registers whose value `P_RESET_VALUES` decides (R66, R502). -/
def ResetModule (c : Module) : Prop :=
  c.pc = 0x0000 ∧ c.i = 0 ∧ c.r = 0 ∧ c.iff1 = false ∧ c.iff2 = false ∧ c.im = .im0 ∧ c.q = 0 ∧ c.halted = false ∧
    c.eiDelay = false ∧ c.prefixBlock = false ∧ c.nmiPending = false ∧ c.nmiPrev = false ∧ c.ldair = false ∧
    c.retiSeen = false ∧ c.port7FFD = 0 ∧ c.trdos = false ∧ c.t = 0

/-- Every register `P_RESET_VALUES` decides is 0 (R66). -/
def ZeroRegisters (c : Module) : Prop :=
  c.a = 0 ∧ c.f = 0 ∧ c.b = 0 ∧ c.c = 0 ∧ c.d = 0 ∧ c.e = 0 ∧ c.h = 0 ∧ c.l = 0 ∧
    c.a' = 0 ∧ c.f' = 0 ∧ c.b' = 0 ∧ c.c' = 0 ∧ c.d' = 0 ∧ c.e' = 0 ∧ c.h' = 0 ∧ c.l' = 0 ∧
    c.ix = 0 ∧ c.iy = 0 ∧ c.sp = 0 ∧ c.memptr = 0

/-- R500, R502 to R504, R66: a board step with a reset request waiting is the reset: every module slot at its reset values (the
registers 0 under ZERO, free under SILICON), the devices and the board reset, RAM, ROM, the frame number and the
configuration as before. -/
def Obligations.ResetTaken : Prop :=
  ∀ s : State, s.takeInputs.resetReq = true → ∃ t, step s = .next t ∧
    (∀ m, ResetModule (t.mods.get m) ∧ (s.cfg.resetValues = .zero → ZeroRegisters (t.mods.get m))) ∧
    t.keysLive = Vector.replicate 8 0x1F ∧ t.keysVisible = Vector.replicate 8 0x1F ∧ t.joyLive = 0 ∧ t.joyVisible = 0 ∧
    t.borderCur = 0 ∧ t.borderLine = List.replicate s.cfg.timing.linesPerFrame 0 ∧
    (∀ m, t.wallInt.get m = false) ∧ t.frameStartPending = true ∧ t.resetSeen = true ∧ t.resetReq = false ∧
    t.nmiLine = false ∧ t.heap = s.heap ∧ t.rom = s.rom ∧ t.frameNo = s.frameNo ∧ t.cfg = s.cfg

/-! ### Memory -/

/-- R91, R92, R95, R98, R501: what backs each slot, ROM image 2 being TR-DOS, under the two maps; with `port7FFD` = 0 and `trdos`
clear address 0 of `SPECTRUM128` is offset 0 of image 0. That `trdos` acts under `SPECTRUM48` too is the model's reading of R98
(log entry 9), and that the 48K BASIC ROM is image 1 there too its reading of R95 beside D22 (log entry 23). -/
def Obligations.MemoryMap : Prop :=
  ∀ (s : State) (a : Word),
    slotOffset a = a.toNat % 0x4000 ∧
    (s.cfg.machineMap = .spectrum128 →
      (a.toNat < 0x4000 → s.backing a =
        .rom (if s.core.trdos = true then 2 else if s.core.port7FFD.getLsbD 4 = true then 1 else 0)) ∧
      (0x4000 ≤ a.toNat → a.toNat < 0x8000 → s.backing a = .ram ((s.cfg.heapMap.get s.cur)[5])) ∧
      (0x8000 ≤ a.toNat → a.toNat < 0xC000 → s.backing a = .ram ((s.cfg.heapMap.get s.cur)[2])) ∧
      (0xC000 ≤ a.toNat → ∀ p : Fin 8, p.val = s.core.port7FFD.toNat % 8 →
        s.backing a = .ram ((s.cfg.heapMap.get s.cur)[p]))) ∧
    (s.cfg.machineMap = .spectrum48 →
      (a.toNat < 0x4000 → s.backing a = .rom (if s.core.trdos = true then 2 else 1)) ∧
      (0x4000 ≤ a.toNat → a.toNat < 0x8000 → s.backing a = .ram ((s.cfg.heapMap.get s.cur)[5])) ∧
      (0x8000 ≤ a.toNat → a.toNat < 0xC000 → s.backing a = .ram ((s.cfg.heapMap.get s.cur)[2])) ∧
      (0xC000 ≤ a.toNat → s.backing a = .ram ((s.cfg.heapMap.get s.cur)[0])))

/-- The state as seen when module `m` steps. -/
def seenBy (m : ModuleId) (s : State) : State := { s with cur := m }

/-- R97, R99, R100, R460, R513: after a byte write by one module, every module reads the new byte at every address that names the
written RAM byte through its own map, and the old byte everywhere else; no other byte of the heap changes, mapped or not; a write to
ROM changes nothing. -/
def Obligations.WritesSeenByAll : Prop :=
  ∀ (s : State) (a : Word) (v : Byte) (m : ModuleId) (b : Word),
    HeapKept s (s.writeByte a v) [a] ∧
    (seenBy m (s.writeByte a v)).readByte b =
      if s.isRam a = true ∧ (seenBy m s).backing b = s.backing a ∧ slotOffset b = slotOffset a then v
      else (seenBy m s).readByte b

/-- R17, R84, R34, R85: a push puts the high byte at SP-1 and the low byte at SP-2, and popping gives the word and SP back; SP wraps. -/
def Obligations.StackRoundTrip : Prop :=
  ∀ (s : State) (v : Word), s.isRam (s.core.sp - 1) = true → s.isRam (s.core.sp - 2) = true →
    (s.push v).core.sp = s.core.sp - 2 ∧
    (s.push v).readByte (s.core.sp - 1) = hiByte v ∧ (s.push v).readByte (s.core.sp - 2) = loByte v ∧
    (s.push v).popValue = v ∧ (s.push v).popped.core = s.core

/-! ### The board and its devices -/

/-- A module's number (R11). -/
def moduleNo : ModuleId → Nat
  | .m0 => 0
  | .m1 => 1
  | .m2 => 2
  | .m3 => 3

/-- R450, R452, R453: the selected module is active, no active module is behind it, none with a lower number is level with it, and
its counter is `frame_t`; in CLASSIC it is module 0. -/
def Obligations.SelectsFurthestBehind : Prop :=
  ∀ s : State, isActive s.cfg s.select = true ∧ s.frameT = (s.mods.get s.select).t ∧
    (s.cfg.boardMode = .classic → s.select = .m0) ∧
    ∀ m, isActive s.cfg m = true →
      (s.mods.get s.select).t ≤ (s.mods.get m).t ∧
      (moduleNo m < moduleNo s.select → (s.mods.get s.select).t < (s.mods.get m).t)

/-- R451, R454, R473, R474, R478, R488: the INT level of each source; the start of a frame takes the snapshot and fills the
border; the module that steps is the one selected, and nothing else of the board changes before its step but the NMI detectors and
`reset_seen`; after it the wall-clock request of that module is cleared under WALLCLOCK, and a frame ends when every active module
has reached its end, and only then; nothing else changes. -/
def Obligations.FrameWork : Prop :=
  (∀ (s : State) (m : ModuleId), s.cfg.intSource = .tstate → (s.intLevel m = true ↔
    s.cfg.timing.intStart ≤ (s.mods.get m).t ∧ (s.mods.get m).t < s.cfg.timing.intStart + s.cfg.timing.intLength)) ∧
  (∀ (s : State) (m : ModuleId), s.cfg.intSource = .wallclock → s.intLevel m = s.wallInt.get m) ∧
  (∀ s : State, s.frameStartPending = true →
    s.opened.keysVisible = s.keysLive ∧ s.opened.joyVisible = s.joyLive ∧
    s.opened.borderLine = List.replicate s.cfg.timing.linesPerFrame s.borderCur ∧ s.opened.frameStartPending = false) ∧
  (∀ s : State, s.frameStartPending = false → s.opened.keysVisible = s.keysVisible ∧
    s.opened.joyVisible = s.joyVisible ∧ s.opened.borderLine = s.borderLine ∧ s.opened.frameStartPending = false) ∧
  (∀ s : State, s.opened.cur = s.select ∧ s.opened.resetSeen = false ∧ s.opened.mods = s.detectNmi.mods ∧
    s.opened = { s with
      cur := s.opened.cur, resetSeen := s.opened.resetSeen, mods := s.opened.mods, keysVisible := s.opened.keysVisible
      joyVisible := s.opened.joyVisible, borderLine := s.opened.borderLine
      frameStartPending := s.opened.frameStartPending }) ∧
  (∀ s : State, (s.cfg.intSource = .wallclock → ∀ m, s.closed.wallInt.get m = (if m = s.cur then false else s.wallInt.get m)) ∧
    (s.cfg.intSource = .tstate → s.closed.wallInt = s.wallInt) ∧
    (∀ m, s.closed.mods.get m = { s.mods.get m with t := (s.closed.mods.get m).t } ∧
      (isActive s.cfg m = false → s.closed.mods.get m = s.mods.get m)) ∧
    s.closed = { s with
      wallInt := s.closed.wallInt, mods := s.closed.mods, frameNo := s.closed.frameNo
      frameStartPending := s.closed.frameStartPending }) ∧
  (∀ s : State, (∀ m, isActive s.cfg m = true → tstatesPerFrame s.cfg.timing ≤ (s.mods.get m).t) →
    s.closed.frameNo = s.frameNo + 1 ∧ s.closed.frameStartPending = true ∧
    ∀ m, isActive s.cfg m = true → (s.closed.mods.get m).t =
      match s.cfg.frameWrap with
      | .carry => (s.mods.get m).t - tstatesPerFrame s.cfg.timing
      | .zero => 0) ∧
  (∀ (s : State) (m : ModuleId), isActive s.cfg m = true → (s.mods.get m).t < tstatesPerFrame s.cfg.timing →
    s.closed.frameNo = s.frameNo ∧ s.closed.mods = s.mods ∧ s.closed.frameStartPending = s.frameStartPending)

/-- R438, R474, R476, R491, R56: what each host input does and that it changes nothing else; that a board step takes the first batch of
inputs, its events in their order, and leaves the other batches (the schedule is the model's, log entry 7); and NMI edge
detection in the active modules. That a wall-clock tick sets the latches under TSTATE too, where R474 says nothing, is log entry
16. -/
def Obligations.HostInputsAndNmiEdge : Prop :=
  (∀ (s : State) (k k' : Fin 8) (b b' : Fin 5),
    ((s.deliver (.keyDown k b)).keysLive[k']).getLsbD b'.val =
      (if k' = k ∧ b' = b then false else (s.keysLive[k']).getLsbD b'.val) ∧
    ((s.deliver (.keyUp k b)).keysLive[k']).getLsbD b'.val =
      (if k' = k ∧ b' = b then true else (s.keysLive[k']).getLsbD b'.val)) ∧
  (∀ (s : State) (b : Fin 5) (n : Fin 8),
    (s.deliver (.joyDown b)).joyLive.getLsbD n.val = (if n.val = b.val then true else s.joyLive.getLsbD n.val) ∧
    (s.deliver (.joyUp b)).joyLive.getLsbD n.val = (if n.val = b.val then false else s.joyLive.getLsbD n.val)) ∧
  (∀ (s : State) (m : ModuleId), (s.deliver .wallTick).wallInt.get m = (isActive s.cfg m || s.wallInt.get m) ∧
    (s.deliver .resetRequest).resetReq = true ∧
    (∀ n, ((s.deliver (.clearReti m)).mods.get n).retiSeen = (if n = m then false else (s.mods.get n).retiSeen)) ∧
    (∀ level, (s.deliver (.nmiLevel level)).nmiLine = level ∧ (s.deliver (.tapeLevel level)).tapeIn = level)) ∧
  (∀ s : State, (s.hostInputs = [] → s.takeInputs = s) ∧
    (∀ later, s.hostInputs = [] :: later → s.takeInputs = { s with hostInputs := later }) ∧
    (∀ batch e later, s.hostInputs = (batch ++ [e]) :: later →
      s.takeInputs = ({ s with hostInputs := batch :: later }).takeInputs.deliver e)) ∧
  (∀ s : State,
    (∀ k b, s.deliver (.keyDown k b) = { s with keysLive := (s.deliver (.keyDown k b)).keysLive } ∧
      s.deliver (.keyUp k b) = { s with keysLive := (s.deliver (.keyUp k b)).keysLive }) ∧
    (∀ b, s.deliver (.joyDown b) = { s with joyLive := (s.deliver (.joyDown b)).joyLive } ∧
      s.deliver (.joyUp b) = { s with joyLive := (s.deliver (.joyUp b)).joyLive }) ∧
    (∀ level, s.deliver (.nmiLevel level) = { s with nmiLine := level } ∧
      s.deliver (.tapeLevel level) = { s with tapeIn := level }) ∧
    s.deliver .wallTick = { s with wallInt := (s.deliver .wallTick).wallInt } ∧
    s.deliver .resetRequest = { s with resetReq := true } ∧
    (∀ m, s.deliver (.clearReti m) = { s with mods := (s.deliver (.clearReti m)).mods } ∧
      ∀ n, (s.deliver (.clearReti m)).mods.get n =
        { s.mods.get n with retiSeen := ((s.deliver (.clearReti m)).mods.get n).retiSeen }) ∧
    s.detectNmi = { s with mods := s.detectNmi.mods }) ∧
  (∀ (s : State) (m : ModuleId),
    (isActive s.cfg m = true → s.detectNmi.mods.get m =
      { s.mods.get m with
        nmiPending := (s.mods.get m).nmiPending || (s.nmiLine && !(s.mods.get m).nmiPrev)
        nmiPrev := s.nmiLine }) ∧
    (isActive s.cfg m = false → s.detectNmi.mods.get m = s.mods.get m))

/-- R484, R489, R490: a port read. Filtered: open bus. An even port: 0xA0, the tape bit and in bits 4..0 a 0 for each key pressed
in a selected half-row. The Kempston port (low byte 0x1F in CLASSIC): the joystick byte. Any other: the free answer of the
first external device that gives one, else open bus. Nothing of the state changes but the number of free values taken, of which
nothing is said (log entry 18). Where a Kempston decode of ZXPOLY takes in an even port, that the keyboard answers it is log entry
25. -/
def Obligations.PortReads : Prop :=
  ∀ (s : State) (port : Word),
    (∃ n, s.portReadDone = { s with draws := n }) ∧
    (s.cfg.boardMode = .classic → (kempstonAnswers s.cfg s.cur port = true ↔ port.toNat % 256 = 0x1F)) ∧
    (ioFilter s.cfg s.cur port .read = false → s.portValue port = s.cfg.openBus) ∧
    (ioFilter s.cfg s.cur port .read = true →
      (port.toNat % 2 = 0 →
        (∀ b : Fin 5, (s.portValue port).getLsbD b.val = false ↔
          ∃ k : Fin 8, port.getLsbD (8 + k.val) = false ∧ (s.keysVisible[k]).getLsbD b.val = false) ∧
        (s.portValue port).getLsbD 5 = true ∧ (s.portValue port).getLsbD 6 = s.tapeIn ∧
        (s.portValue port).getLsbD 7 = true) ∧
      (port.toNat % 2 = 1 → kempstonAnswers s.cfg s.cur port = true → s.portValue port = s.joyVisible) ∧
      (port.toNat % 2 = 1 → kempstonAnswers s.cfg s.cur port = false →
        (∃ n, n < s.cfg.externals.length ∧ Config.freeAnswer (s.draws + n) = some (s.portValue port) ∧
          ∀ k, k < n → Config.freeAnswer (s.draws + k) = none) ∨
        (s.portValue port = s.cfg.openBus ∧
          ∀ k, k < s.cfg.externals.length → Config.freeAnswer (s.draws + k) = none)))

/-- R93, R94, R477, R478, R485: a port write. The latch takes the byte when the port is the bank-select port and the lock is clear;
an even port that the filter lets through sets the border colour from the write's line on. -/
def Obligations.PortWrites : Prop :=
  ∀ (s : State) (port : Word) (v : Byte) (tw : Nat),
    ((s.portWrite port v tw).core.port7FFD =
      if s.cfg.machineMap = .spectrum128 ∧ port.getLsbD 15 = false ∧ port.getLsbD 1 = false ∧
        s.core.port7FFD.getLsbD 5 = false then v else s.core.port7FFD) ∧
    (port.toNat % 2 = 0 → ioFilter s.cfg s.cur port .write = true →
      (s.portWrite port v tw).borderCur.toNat = v.toNat % 8 ∧
      (s.portWrite port v tw).borderLine.length = s.borderLine.length ∧
      ∀ l, l < s.borderLine.length → (s.portWrite port v tw).borderLine[l]? =
        (if (l : Int) < max 0 (min (((tw : Int) + s.cfg.borderOffset) / s.cfg.timing.tstatesPerLine)
            ((s.cfg.timing.linesPerFrame - 1 : Nat) : Int))
          then s.borderLine[l]? else some (BitVec.ofNat 3 v.toNat))) ∧
    ((port.toNat % 2 = 1 ∨ ioFilter s.cfg s.cur port .write = false) →
      (s.portWrite port v tw).borderCur = s.borderCur ∧ (s.portWrite port v tw).borderLine = s.borderLine) ∧
    (s.portWrite port v tw) = { s with
      mods := (s.portWrite port v tw).mods
      borderCur := (s.portWrite port v tw).borderCur
      borderLine := (s.portWrite port v tw).borderLine } ∧
    (s.portWrite port v tw).core = { s.core with port7FFD := (s.portWrite port v tw).core.port7FFD }

/-- R479, R106, R471, R481: at a frame's completion the video snapshot reads bank 5 or 7 of the module at the offset (bank 5 under
the 48K map), elsewhere it answers nothing, and it refuses an offset past 0x1AFF; the modelled devices get no hook and the AY pair
the post-step hook only; the raster line of a frame time is its line number, clamped to the last line. -/
def Obligations.VideoAndRaster : Prop :=
  (∀ (s : State) (m : ModuleId) (offset : Nat), 0x1AFF < offset → s.readVideo m offset = .error .videoOffset) ∧
  (∀ (s : State) (m : ModuleId) (offset : Nat), offset ≤ 0x1AFF → (s.frameStartPending = false ∨ s.resetSeen = true) →
    s.readVideo m offset = .error .midFrame) ∧
  (∀ (s : State) (m : ModuleId) (offset : Nat), offset ≤ 0x1AFF → s.frameStartPending = true → s.resetSeen = false →
    (s.cfg.machineMap = .spectrum128 → s.readVideo m offset = .ok (s.heapByte
      ((s.cfg.heapMap.get m)[(if (s.mods.get m).port7FFD.getLsbD 3 = true then 7 else 5 : Fin 8)] * 0x4000 + offset))) ∧
    (s.cfg.machineMap = .spectrum48 →
      s.readVideo m offset = .ok (s.heapByte ((s.cfg.heapMap.get m)[5] * 0x4000 + offset)))) ∧
  (∀ g : Config, Device.keyboard ∉ preStepDevices g ++ postStepDevices g ∧
    Device.videoLatch ∉ preStepDevices g ++ postStepDevices g ∧
    ∀ k, g.externals[k]? = some .ayPair → Device.outside k ∈ postStepDevices g ∧ Device.outside k ∉ preStepDevices g) ∧
  (∀ (p : TimingProfile) (t : Nat), 0 < p.tstatesPerLine → 0 < p.linesPerFrame →
    rasterLine p t < p.linesPerFrame ∧ rasterCol p t < p.tstatesPerLine ∧
    (t < tstatesPerFrame p → rasterLine p t * p.tstatesPerLine + rasterCol p t = t) ∧
    (tstatesPerFrame p ≤ t → rasterLine p t = p.linesPerFrame - 1))

/-! ### Loads, stores, stack and exchange -/

/-- R150, R151, R168, R169: the register and immediate 8-bit loads write the destination and nothing else. -/
def Obligations.LoadRegister : Prop :=
  (∀ r r', Encoded (.ldRR r r') [op8 (0x40 + 8 * r.code.toNat + r'.code.toNat)] 1 ∧
    Runs (.ldRR r r') 4 false fun s t => Quiet s t ∧ t.core = (s.core.stepped t.core).setReg8 r (s.core.reg8 r')) ∧
  (∀ r n, Encoded (.ldRN r n) [op8 (0x06 + 8 * r.code.toNat), n] 1 ∧
    Runs (.ldRN r n) 7 false fun s t => Quiet s t ∧ t.core = (s.core.stepped t.core).setReg8 r n) ∧
  (∀ x p p', p.isHalf = true ∨ p'.isHalf = true →
    Encoded (.ldPP x p p') [x.prefixByte, op8 (0x40 + 8 * p.code.toNat + p'.code.toNat)] 2 ∧
    Runs (.ldPP x p p') 8 false fun s t => Quiet s t ∧
      t.core = (s.core.stepped t.core).setHreg x p (s.core.hreg x p')) ∧
  (∀ x h n, Encoded (.ldHalfN x h n) [x.prefixByte, op8 (0x06 + 8 * h.code.toNat), n] 2 ∧
    Runs (.ldHalfN x h n) 11 false fun s t => Quiet s t ∧ t.core = (s.core.stepped t.core).setHalf x h n)

/-- R152, R153, R158 to R160: the 8-bit loads from memory, with MEMPTR as each rule says. -/
def Obligations.LoadByteFromMemory : Prop :=
  (∀ r, Encoded (.ldRMHl r) [op8 (0x46 + 8 * r.code.toNat)] 1 ∧
    Runs (.ldRMHl r) 7 false fun s t => Quiet s t ∧
      t.core = (s.core.stepped t.core).setReg8 r (s.readByte s.core.hl)) ∧
  (∀ r d, Encoded (.ldRMIx r d) [0xDD, op8 (0x46 + 8 * r.code.toNat), d] 2 ∧
    Runs (.ldRMIx r d) 19 false fun s t => Quiet s t ∧
      t.core = { (s.core.stepped t.core).setReg8 r (s.readByte (s.core.ix + d.signExtend 16)) with
        memptr := s.core.ix + d.signExtend 16 }) ∧
  (∀ r d, Encoded (.ldRMIy r d) [0xFD, op8 (0x46 + 8 * r.code.toNat), d] 2 ∧
    Runs (.ldRMIy r d) 19 false fun s t => Quiet s t ∧
      t.core = { (s.core.stepped t.core).setReg8 r (s.readByte (s.core.iy + d.signExtend 16)) with
        memptr := s.core.iy + d.signExtend 16 }) ∧
  (Encoded .ldAMBc [0x0A] 1 ∧ Runs .ldAMBc 7 false fun s t => Quiet s t ∧
    t.core = { s.core.stepped t.core with a := s.readByte s.core.bc, memptr := s.core.bc + 1 }) ∧
  (Encoded .ldAMDe [0x1A] 1 ∧ Runs .ldAMDe 7 false fun s t => Quiet s t ∧
    t.core = { s.core.stepped t.core with a := s.readByte s.core.de, memptr := s.core.de + 1 }) ∧
  (∀ nn, Encoded (.ldAMNn nn) (0x3A :: lowHigh nn) 1 ∧ Runs (.ldAMNn nn) 13 false fun s t => Quiet s t ∧
    t.core = { s.core.stepped t.core with a := s.readByte nn, memptr := nn + 1 })

/-- R154 to R157, R161 to R163: the 8-bit stores. -/
def Obligations.StoreByte : Prop :=
  (∀ r, Encoded (.ldMHlR r) [op8 (0x70 + r.code.toNat)] 1 ∧
    Runs (.ldMHlR r) 7 false fun s t => Stores s t s.core.hl (s.core.reg8 r) ∧ t.core = s.core.stepped t.core) ∧
  (∀ n, Encoded (.ldMHlN n) [0x36, n] 1 ∧
    Runs (.ldMHlN n) 10 false fun s t => Stores s t s.core.hl n ∧ t.core = s.core.stepped t.core) ∧
  (∀ r d, Encoded (.ldMIxR r d) [0xDD, op8 (0x70 + r.code.toNat), d] 2 ∧
    Runs (.ldMIxR r d) 19 false fun s t => Stores s t (s.core.ix + d.signExtend 16) (s.core.reg8 r) ∧
      t.core = { s.core.stepped t.core with memptr := s.core.ix + d.signExtend 16 }) ∧
  (∀ r d, Encoded (.ldMIyR r d) [0xFD, op8 (0x70 + r.code.toNat), d] 2 ∧
    Runs (.ldMIyR r d) 19 false fun s t => Stores s t (s.core.iy + d.signExtend 16) (s.core.reg8 r) ∧
      t.core = { s.core.stepped t.core with memptr := s.core.iy + d.signExtend 16 }) ∧
  (∀ d n, Encoded (.ldMIxN d n) [0xDD, 0x36, d, n] 2 ∧
    Runs (.ldMIxN d n) 19 false fun s t => Stores s t (s.core.ix + d.signExtend 16) n ∧
      t.core = { s.core.stepped t.core with memptr := s.core.ix + d.signExtend 16 }) ∧
  (∀ d n, Encoded (.ldMIyN d n) [0xFD, 0x36, d, n] 2 ∧
    Runs (.ldMIyN d n) 19 false fun s t => Stores s t (s.core.iy + d.signExtend 16) n ∧
      t.core = { s.core.stepped t.core with memptr := s.core.iy + d.signExtend 16 }) ∧
  (Encoded .ldMBcA [0x02] 1 ∧ Runs .ldMBcA 7 false fun s t => Stores s t s.core.bc s.core.a ∧
    t.core = { s.core.stepped t.core with memptr := pair s.core.a (s.core.c + 1) }) ∧
  (Encoded .ldMDeA [0x12] 1 ∧ Runs .ldMDeA 7 false fun s t => Stores s t s.core.de s.core.a ∧
    t.core = { s.core.stepped t.core with memptr := pair s.core.a (s.core.e + 1) }) ∧
  (∀ nn, Encoded (.ldMNnA nn) (0x32 :: lowHigh nn) 1 ∧ Runs (.ldMNnA nn) 13 false fun s t => Stores s t nn s.core.a ∧
    t.core = { s.core.stepped t.core with memptr := pair s.core.a (BitVec.ofNat 8 (nn.toNat % 256 + 1)) })

/-- A load of A from I or R: the value, the flags and the mark (R164, R165). -/
def LoadsAFrom (v : Module → Byte) (s t : State) : Prop :=
  Quiet s t ∧ t.core.t = s.core.t + 9 ∧ t.core.q = t.core.f ∧ t.core.ldair = true ∧ t.core.eiDelay = false ∧
    t.core.prefixBlock = false ∧ t.core = { s.core.stepped t.core with a := v s.core, f := t.core.f } ∧
    FlagsSZXY (v s.core) t.core.f ∧ flagH t.core.f = false ∧ flagP t.core.f = s.core.iff2 ∧
    flagN t.core.f = false ∧ flagC t.core.f = flagC s.core.f

/-- R164 to R167: the loads between A, I and R. R has counted the instruction's own two M1 cycles when `exec` starts. -/
def Obligations.InterruptAndRefreshLoads : Prop :=
  (Encoded .ldAI [0xED, 0x57] 2 ∧ ∀ s, ∃ t, exec .ldAI s = .next t ∧ LoadsAFrom (fun c => c.i) s t) ∧
  (Encoded .ldAR [0xED, 0x5F] 2 ∧ ∀ s, ∃ t, exec .ldAR s = .next t ∧ LoadsAFrom (fun c => c.r) s t) ∧
  (Encoded .ldIA [0xED, 0x47] 2 ∧ Runs .ldIA 9 false fun s t => Quiet s t ∧
    t.core = { s.core.stepped t.core with i := s.core.a }) ∧
  (Encoded .ldRA [0xED, 0x4F] 2 ∧ Runs .ldRA 9 false fun s t => Quiet s t ∧
    t.core = { s.core.stepped t.core with r := s.core.a })

/-- The word at an address, low byte first (R15, R84). -/
def wordAt (s : State) (a : Word) : Word := pair (s.readByte (a + 1)) (s.readByte a)

/-- R180 to R184, R188, R189: the 16-bit loads. -/
def Obligations.LoadPair : Prop :=
  (∀ dd nn, Encoded (.ldDdNn dd nn) (op8 (0x01 + 16 * dd.code.toNat) :: lowHigh nn) 1 ∧
    Runs (.ldDdNn dd nn) 10 false fun s t => Quiet s t ∧ t.core = (s.core.stepped t.core).setRp dd nn) ∧
  (∀ nn, Encoded (.ldIxNn nn) (0xDD :: 0x21 :: lowHigh nn) 2 ∧
    Runs (.ldIxNn nn) 14 false fun s t => Quiet s t ∧ t.core = { s.core.stepped t.core with ix := nn }) ∧
  (∀ nn, Encoded (.ldIyNn nn) (0xFD :: 0x21 :: lowHigh nn) 2 ∧
    Runs (.ldIyNn nn) 14 false fun s t => Quiet s t ∧ t.core = { s.core.stepped t.core with iy := nn }) ∧
  (∀ nn, Encoded (.ldHlMNn nn) (0x2A :: lowHigh nn) 1 ∧
    Runs (.ldHlMNn nn) 16 false fun s t => Quiet s t ∧
      t.core = { s.core.stepped t.core with h := s.readByte (nn + 1), l := s.readByte nn, memptr := nn + 1 }) ∧
  (∀ dd nn, Encoded (.ldDdMNn dd nn) (0xED :: op8 (0x4B + 16 * dd.code.toNat) :: lowHigh nn) 2 ∧
    Runs (.ldDdMNn dd nn) 20 false fun s t => Quiet s t ∧
      t.core = { (s.core.stepped t.core).setRp dd (wordAt s nn) with memptr := nn + 1 }) ∧
  (∀ nn, Encoded (.ldIxMNn nn) (0xDD :: 0x2A :: lowHigh nn) 2 ∧
    Runs (.ldIxMNn nn) 20 false fun s t => Quiet s t ∧
      t.core = { s.core.stepped t.core with ix := wordAt s nn, memptr := nn + 1 }) ∧
  (∀ nn, Encoded (.ldIyMNn nn) (0xFD :: 0x2A :: lowHigh nn) 2 ∧
    Runs (.ldIyMNn nn) 20 false fun s t => Quiet s t ∧
      t.core = { s.core.stepped t.core with iy := wordAt s nn, memptr := nn + 1 }) ∧
  (Encoded .ldSpHl [0xF9] 1 ∧ Runs .ldSpHl 6 false fun s t => Quiet s t ∧
    t.core = { s.core.stepped t.core with sp := s.core.hl }) ∧
  (Encoded .ldSpIx [0xDD, 0xF9] 2 ∧ Runs .ldSpIx 10 false fun s t => Quiet s t ∧
    t.core = { s.core.stepped t.core with sp := s.core.ix }) ∧
  (Encoded .ldSpIy [0xFD, 0xF9] 2 ∧ Runs .ldSpIy 10 false fun s t => Quiet s t ∧
    t.core = { s.core.stepped t.core with sp := s.core.iy })

/-- R185 to R187, R190, R191: the 16-bit stores and pushes. -/
def Obligations.StorePair : Prop :=
  (∀ nn, Encoded (.ldMNnHl nn) (0x22 :: lowHigh nn) 1 ∧
    Runs (.ldMNnHl nn) 16 false fun s t => StoresTwo s t nn s.core.l s.core.h ∧
      t.core = { s.core.stepped t.core with memptr := nn + 1 }) ∧
  (∀ dd nn, Encoded (.ldMNnDd dd nn) (0xED :: op8 (0x43 + 16 * dd.code.toNat) :: lowHigh nn) 2 ∧
    Runs (.ldMNnDd dd nn) 20 false fun s t => StoresTwo s t nn (loByte (s.core.rp dd)) (hiByte (s.core.rp dd)) ∧
      t.core = { s.core.stepped t.core with memptr := nn + 1 }) ∧
  (∀ nn, Encoded (.ldMNnIx nn) (0xDD :: 0x22 :: lowHigh nn) 2 ∧
    Runs (.ldMNnIx nn) 20 false fun s t => StoresTwo s t nn (loByte s.core.ix) (hiByte s.core.ix) ∧
      t.core = { s.core.stepped t.core with memptr := nn + 1 }) ∧
  (∀ nn, Encoded (.ldMNnIy nn) (0xFD :: 0x22 :: lowHigh nn) 2 ∧
    Runs (.ldMNnIy nn) 20 false fun s t => StoresTwo s t nn (loByte s.core.iy) (hiByte s.core.iy) ∧
      t.core = { s.core.stepped t.core with memptr := nn + 1 }) ∧
  (∀ qq, Encoded (.pushQq qq) [op8 (0xC5 + 16 * qq.code.toNat)] 1 ∧
    Runs (.pushQq qq) 11 false fun s t =>
      StoresTwo s t (s.core.sp - 2) (loByte (s.core.rp2 qq)) (hiByte (s.core.rp2 qq)) ∧
      t.core = { s.core.stepped t.core with sp := s.core.sp - 2 }) ∧
  (Encoded .pushIx [0xDD, 0xE5] 2 ∧ Runs .pushIx 15 false fun s t =>
    StoresTwo s t (s.core.sp - 2) (loByte s.core.ix) (hiByte s.core.ix) ∧
      t.core = { s.core.stepped t.core with sp := s.core.sp - 2 }) ∧
  (Encoded .pushIy [0xFD, 0xE5] 2 ∧ Runs .pushIy 15 false fun s t =>
    StoresTwo s t (s.core.sp - 2) (loByte s.core.iy) (hiByte s.core.iy) ∧
      t.core = { s.core.stepped t.core with sp := s.core.sp - 2 })

/-- R192, R193: the pops; POP AF replaces F and ends with Q = 0. -/
def Obligations.PopPair : Prop :=
  (∀ qq, Encoded (.popQq qq) [op8 (0xC1 + 16 * qq.code.toNat)] 1 ∧
    Runs (.popQq qq) 10 false fun s t => Quiet s t ∧
      t.core = { (s.core.stepped t.core).setRp2 qq (wordAt s s.core.sp) with sp := s.core.sp + 2 }) ∧
  (Encoded .popIx [0xDD, 0xE1] 2 ∧ Runs .popIx 14 false fun s t => Quiet s t ∧
    t.core = { s.core.stepped t.core with ix := wordAt s s.core.sp, sp := s.core.sp + 2 }) ∧
  (Encoded .popIy [0xFD, 0xE1] 2 ∧ Runs .popIy 14 false fun s t => Quiet s t ∧
    t.core = { s.core.stepped t.core with iy := wordAt s s.core.sp, sp := s.core.sp + 2 })

/-- R210 to R214: the exchanges; a DD or FD prefix leaves EX DE,HL on HL. -/
def Obligations.Exchanges : Prop :=
  (Encoded .exDeHl [0xEB] 1 ∧ Runs .exDeHl 4 false fun s t => Quiet s t ∧
    t.core = { s.core.stepped t.core with d := s.core.h, e := s.core.l, h := s.core.d, l := s.core.e }) ∧
  (∀ x, Encoded (.ddFd x .exDeHl) [x.prefixByte, 0xEB] 2 ∧ Runs (.ddFd x .exDeHl) 8 false fun s t => Quiet s t ∧
    t.core = { s.core.stepped t.core with d := s.core.h, e := s.core.l, h := s.core.d, l := s.core.e }) ∧
  (Encoded .exAfAf [0x08] 1 ∧ Runs .exAfAf 4 false fun s t => Quiet s t ∧
    t.core = { s.core.stepped t.core with a := s.core.a', f := s.core.f', a' := s.core.a, f' := s.core.f }) ∧
  (Encoded .exx [0xD9] 1 ∧ Runs .exx 4 false fun s t => Quiet s t ∧
    t.core = { s.core.stepped t.core with
      b := s.core.b', c := s.core.c', d := s.core.d', e := s.core.e', h := s.core.h', l := s.core.l'
      b' := s.core.b, c' := s.core.c, d' := s.core.d, e' := s.core.e, h' := s.core.h, l' := s.core.l }) ∧
  (Encoded .exMSpHl [0xE3] 1 ∧ Runs .exMSpHl 19 false fun s t => StoresTwo s t s.core.sp s.core.l s.core.h ∧
    t.core = { s.core.stepped t.core with
      h := s.readByte (s.core.sp + 1), l := s.readByte s.core.sp, memptr := wordAt s s.core.sp }) ∧
  (Encoded .exMSpIx [0xDD, 0xE3] 2 ∧ Runs .exMSpIx 23 false fun s t =>
    StoresTwo s t s.core.sp (loByte s.core.ix) (hiByte s.core.ix) ∧
    t.core = { s.core.stepped t.core with ix := wordAt s s.core.sp, memptr := wordAt s s.core.sp }) ∧
  (Encoded .exMSpIy [0xFD, 0xE3] 2 ∧ Runs .exMSpIy 23 false fun s t =>
    StoresTwo s t s.core.sp (loByte s.core.iy) (hiByte s.core.iy) ∧
    t.core = { s.core.stepped t.core with iy := wordAt s s.core.sp, memptr := wordAt s s.core.sp })

/-- The registers a block transfer moves, and no others (R215, R216). -/
def TransferFrame (step : Word) (s t : State) : Prop :=
  Stores s t s.core.de (s.readByte s.core.hl) ∧ t.core.hl = s.core.hl + step ∧ t.core.de = s.core.de + step ∧
    t.core.bc = s.core.bc - 1 ∧
    t.core = { s.core.stepped t.core with
      b := t.core.b, c := t.core.c, d := t.core.d, e := t.core.e, h := t.core.h, l := t.core.l
      f := t.core.f, pc := t.core.pc, memptr := t.core.memptr }

/-- The flags of a block transfer but for Y and X (R215). -/
def TransferFlags (s t : State) : Prop :=
  flagS t.core.f = flagS s.core.f ∧ flagZ t.core.f = flagZ s.core.f ∧ flagC t.core.f = flagC s.core.f ∧
    flagH t.core.f = false ∧ flagN t.core.f = false ∧ flagP t.core.f = decide (s.core.bc ≠ 1)

/-- One LDI or LDD (R215, R217): PC and MEMPTR stay, Y and X are bits 1 and 3 of v + A. -/
def TransferOnce (step : Word) (s t : State) : Prop :=
  TransferFrame step s t ∧ TransferFlags s t ∧ t.core.pc = s.core.pc ∧ t.core.memptr = s.core.memptr ∧
    flagY t.core.f = (s.readByte s.core.hl + s.core.a).getLsbD 1 ∧ flagX t.core.f = (s.readByte s.core.hl + s.core.a).getLsbD 3

/-- An iteration of LDIR or LDDR (R216, R218): as LDI or LDD when BC reaches 0; else PC goes back to the ED byte, MEMPTR follows,
and under `PC_HIGH` Y and X are those of that PC. -/
def TransferRepeats (step : Word) (s t : State) : Prop :=
  (s.core.bc = 1 → TransferOnce step s t) ∧
  (s.core.bc ≠ 1 → TransferFrame step s t ∧ TransferFlags s t ∧ t.core.pc = s.core.pc - 2 ∧
    t.core.memptr = s.core.pc - 2 + 1 ∧
    (s.cfg.blockRepeatXy = .classic → flagY t.core.f = (s.readByte s.core.hl + s.core.a).getLsbD 1 ∧
      flagX t.core.f = (s.readByte s.core.hl + s.core.a).getLsbD 3) ∧
    (s.cfg.blockRepeatXy = .pcHigh → flagY t.core.f = (s.core.pc - 2).getLsbD 13 ∧
      flagX t.core.f = (s.core.pc - 2).getLsbD 11))

/-- R215 to R218: the block transfers. -/
def Obligations.BlockTransfers : Prop :=
  (Encoded .ldi [0xED, 0xA0] 2 ∧ Runs .ldi 16 true (TransferOnce 1)) ∧
  (Encoded .ldd [0xED, 0xA8] 2 ∧ Runs .ldd 16 true (TransferOnce 0xFFFF)) ∧
  (Encoded .ldir [0xED, 0xB0] 2 ∧
    RunsFor .ldir (fun s => if s.core.bc = 1 then 16 else 21) true (TransferRepeats 1)) ∧
  (Encoded .lddr [0xED, 0xB8] 2 ∧
    RunsFor .lddr (fun s => if s.core.bc = 1 then 16 else 21) true (TransferRepeats 0xFFFF))

/-- The registers a block search moves, and no others (R219, R220). -/
def SearchFrame (step : Word) (s t : State) : Prop :=
  Quiet s t ∧ t.core.hl = s.core.hl + step ∧ t.core.bc = s.core.bc - 1 ∧
    t.core = { s.core.stepped t.core with
      b := t.core.b, c := t.core.c, h := t.core.h, l := t.core.l, f := t.core.f, pc := t.core.pc, memptr := t.core.memptr }

/-- The flags of a block search but for Y and X, with v the byte at HL (R219). -/
def SearchFlags (s t : State) : Prop :=
  let v := s.readByte s.core.hl
  flagS t.core.f = (s.core.a - v).getLsbD 7 ∧ flagZ t.core.f = decide (s.core.a = v) ∧
    flagH t.core.f = decide (s.core.a.toNat % 16 < v.toNat % 16) ∧ flagP t.core.f = decide (s.core.bc ≠ 1) ∧
    flagN t.core.f = true ∧ flagC t.core.f = flagC s.core.f

/-- Y and X of a block search: bits 1 and 3 of A - v - H (R219). -/
def SearchYX (s t : State) : Prop :=
  let v := s.readByte s.core.hl
  let n := s.core.a - v - (if s.core.a.toNat % 16 < v.toNat % 16 then 1 else 0)
  flagY t.core.f = n.getLsbD 1 ∧ flagX t.core.f = n.getLsbD 3

/-- One CPI or CPD (R219, R221). -/
def SearchOnce (step : Word) (s t : State) : Prop :=
  SearchFrame step s t ∧ SearchFlags s t ∧ SearchYX s t ∧ t.core.pc = s.core.pc ∧ t.core.memptr = s.core.memptr + step

/-- The search goes on: BC does not reach 0 and there is no match (R220). -/
def searchGoesOn (s : State) : Bool := s.core.bc != 1 && s.core.a != s.readByte s.core.hl

/-- An iteration of CPIR or CPDR (R220, R222). -/
def SearchRepeats (step : Word) (s t : State) : Prop :=
  (searchGoesOn s = false → SearchOnce step s t) ∧
  (searchGoesOn s = true → SearchFrame step s t ∧ SearchFlags s t ∧ t.core.pc = s.core.pc - 2 ∧
    t.core.memptr = s.core.pc - 2 + 1 ∧
    (s.cfg.blockRepeatXy = .classic → SearchYX s t) ∧
    (s.cfg.blockRepeatXy = .pcHigh → flagY t.core.f = (s.core.pc - 2).getLsbD 13 ∧
      flagX t.core.f = (s.core.pc - 2).getLsbD 11))

/-- R219 to R222: the block searches. -/
def Obligations.BlockSearches : Prop :=
  (Encoded .cpi [0xED, 0xA1] 2 ∧ Runs .cpi 16 true (SearchOnce 1)) ∧
  (Encoded .cpd [0xED, 0xA9] 2 ∧ Runs .cpd 16 true (SearchOnce 0xFFFF)) ∧
  (Encoded .cpir [0xED, 0xB1] 2 ∧
    RunsFor .cpir (fun s => if searchGoesOn s then 21 else 16) true (SearchRepeats 1)) ∧
  (Encoded .cpdr [0xED, 0xB9] 2 ∧
    RunsFor .cpdr (fun s => if searchGoesOn s then 21 else 16) true (SearchRepeats 0xFFFF))

/-! ### Arithmetic and logic -/

/-- An accumulator operation in one operand form: it runs from every state in `n` T-states, reads `v`, leaves MEMPTR as `mp` says,
writes A and F as `rule` says (old A, operand, old F, new A, new F), and nothing else (R240). -/
def AluForm (i : Instr) (bytes : List Byte) (m1 n : Nat) (v : State → Byte) (mp : State → Word)
    (rule : Byte → Byte → Byte → Byte → Byte → Prop) : Prop :=
  Encoded i bytes m1 ∧ Runs i n true fun s t => Quiet s t ∧
    t.core = { s.core.stepped t.core with a := t.core.a, f := t.core.f, memptr := mp s } ∧
    rule s.core.a (v s) s.core.f t.core.a t.core.f

/-- The six operand forms of the accumulator operation with field value `y` (R240, R126). -/
def AluForms (y : Nat) (ofR : Reg8 → Instr) (ofN : Byte → Instr) (ofHl : Instr) (ofIx ofIy : Byte → Instr)
    (ofHalf : IdxReg → Half → Instr) (rule : Byte → Byte → Byte → Byte → Byte → Prop) : Prop :=
  (∀ r, AluForm (ofR r) [op8 (0x80 + 8 * y + r.code.toNat)] 1 4 (fun s => s.core.reg8 r) (fun s => s.core.memptr) rule) ∧
  (∀ n, AluForm (ofN n) [op8 (0xC6 + 8 * y), n] 1 7 (fun _ => n) (fun s => s.core.memptr) rule) ∧
  AluForm ofHl [op8 (0x86 + 8 * y)] 1 7 (fun s => s.readByte s.core.hl) (fun s => s.core.memptr) rule ∧
  (∀ d, AluForm (ofIx d) [0xDD, op8 (0x86 + 8 * y), d] 2 19 (fun s => s.readByte (s.core.ix + d.signExtend 16))
    (fun s => s.core.ix + d.signExtend 16) rule) ∧
  (∀ d, AluForm (ofIy d) [0xFD, op8 (0x86 + 8 * y), d] 2 19 (fun s => s.readByte (s.core.iy + d.signExtend 16))
    (fun s => s.core.iy + d.signExtend 16) rule) ∧
  (∀ x h, AluForm (ofHalf x h) [x.prefixByte, op8 (0x80 + 8 * y + h.code.toNat)] 2 8 (fun s => s.core.half x h)
    (fun s => s.core.memptr) rule)

/-- R240, R241, R243, R244: ADD and ADC in every operand form: the sum, all eight flags, overflow being that of the signed sum. -/
def Obligations.AddAndAdc : Prop :=
  AluForms 0 .addAR .addAN .addAMHl .addAMIx .addAMIy .addAHalf (fun a v _ a' f' => AdderRule a v false a' f') ∧
  AluForms 1 .adcAR .adcAN .adcAMHl .adcAMIx .adcAMIy .adcAHalf (fun a v f a' f' => AdderRule a v (flagC f) a' f')

/-- R240, R241, R245, R246, R250: SUB, SBC and CP in every operand form; CP keeps A and takes Y and X from the operand. -/
def Obligations.SubSbcAndCp : Prop :=
  AluForms 2 .subR .subN .subMHl .subMIx .subMIy .subHalf
    (fun a v _ a' f' => SubtractorRule a v false a' f' ∧ FlagsYX a' f') ∧
  AluForms 3 .sbcAR .sbcAN .sbcAMHl .sbcAMIx .sbcAMIy .sbcAHalf
    (fun a v f a' f' => SubtractorRule a v (flagC f) a' f' ∧ FlagsYX a' f') ∧
  AluForms 7 .cpR .cpN .cpMHl .cpMIx .cpMIy .cpHalf
    (fun a v _ a' f' => SubtractorRule a v false (a - v) f' ∧ FlagsYX v f' ∧ a' = a)

/-- R240, R242, R247 to R249: AND, XOR and OR in every operand form. -/
def Obligations.LogicOperations : Prop :=
  AluForms 4 .andR .andN .andMHl .andMIx .andMIy .andHalf
    (fun a v _ a' f' => (∀ k : Nat, a'.getLsbD k = (a.getLsbD k && v.getLsbD k)) ∧ LogicRule a' true f') ∧
  AluForms 5 .xorR .xorN .xorMHl .xorMIx .xorMIy .xorHalf
    (fun a v _ a' f' => (∀ k : Nat, a'.getLsbD k = (a.getLsbD k != v.getLsbD k)) ∧ LogicRule a' false f') ∧
  AluForms 6 .orR .orN .orMHl .orMIx .orMIy .orHalf
    (fun a v _ a' f' => (∀ k : Nat, a'.getLsbD k = (a.getLsbD k || v.getLsbD k)) ∧ LogicRule a' false f')

/-- An 8-bit increment of `v` to `r`, F from `f0` to `f` (R251). -/
def IncRule (v r f0 f : Byte) : Prop :=
  r.toNat = (v.toNat + 1) % 256 ∧ FlagsSZXY r f ∧ flagH f = decide (v.toNat % 16 = 15) ∧
    flagP f = decide (v.toNat = 127) ∧ flagN f = false ∧ flagC f = flagC f0

/-- An 8-bit decrement of `v` to `r`, F from `f0` to `f` (R254). -/
def DecRule (v r f0 f : Byte) : Prop :=
  r.toNat = (v.toNat + 255) % 256 ∧ FlagsSZXY r f ∧ flagH f = decide (v.toNat % 16 = 0) ∧
    flagP f = decide (v.toNat = 128) ∧ flagN f = true ∧ flagC f = flagC f0

/-- One of INC and DEC in its five operand forms, the opcode of field value y = 0 being `op` (R251 to R256). -/
def StepForms (op : Nat) (ofR : Reg8 → Instr) (ofHl : Instr) (ofIx ofIy : Byte → Instr) (ofHalf : IdxReg → Half → Instr)
    (rule : Byte → Byte → Byte → Byte → Prop) : Prop :=
  (∀ r, Encoded (ofR r) [op8 (op + 8 * r.code.toNat)] 1 ∧ Runs (ofR r) 4 true fun s t => Quiet s t ∧
    ∃ v, t.core = { (s.core.stepped t.core).setReg8 r v with f := t.core.f } ∧ rule (s.core.reg8 r) v s.core.f t.core.f) ∧
  (∀ x h, Encoded (ofHalf x h) [x.prefixByte, op8 (op + 8 * h.code.toNat)] 2 ∧
    Runs (ofHalf x h) 8 true fun s t => Quiet s t ∧
    ∃ v, t.core = { (s.core.stepped t.core).setHalf x h v with f := t.core.f } ∧ rule (s.core.half x h) v s.core.f t.core.f) ∧
  (Encoded ofHl [op8 (op + 48)] 1 ∧ Runs ofHl 11 true fun s t =>
    t.core = { s.core.stepped t.core with f := t.core.f } ∧
    ∃ v, Stores s t s.core.hl v ∧ rule (s.readByte s.core.hl) v s.core.f t.core.f) ∧
  (∀ d, Encoded (ofIx d) [0xDD, op8 (op + 48), d] 2 ∧ Runs (ofIx d) 23 true fun s t =>
    t.core = { s.core.stepped t.core with f := t.core.f, memptr := s.core.ix + d.signExtend 16 } ∧
    ∃ v, Stores s t (s.core.ix + d.signExtend 16) v ∧
      rule (s.readByte (s.core.ix + d.signExtend 16)) v s.core.f t.core.f) ∧
  (∀ d, Encoded (ofIy d) [0xFD, op8 (op + 48), d] 2 ∧ Runs (ofIy d) 23 true fun s t =>
    t.core = { s.core.stepped t.core with f := t.core.f, memptr := s.core.iy + d.signExtend 16 } ∧
    ∃ v, Stores s t (s.core.iy + d.signExtend 16) v ∧
      rule (s.readByte (s.core.iy + d.signExtend 16)) v s.core.f t.core.f)

/-- R251 to R256: the 8-bit increments and decrements. -/
def Obligations.IncAndDec : Prop :=
  StepForms 0x04 .incR .incMHl .incMIx .incMIy .incHalf IncRule ∧
  StepForms 0x05 .decR .decMHl .decMIx .decMIy .decHalf DecRule

/-- The correction of DAA (R270). -/
def daaAmount (a : Nat) (h c : Bool) : Nat :=
  (if a % 16 > 9 ∨ h = true then 6 else 0) + (if a > 153 ∨ c = true then 96 else 0)

/-- R270 to R274, R282: DAA, CPL, NEG, CCF and SCF. -/
def Obligations.AccumulatorAdjust : Prop :=
  (Encoded .daa [0x27] 1 ∧ Runs .daa 4 true fun s t => Quiet s t ∧
    t.core = { s.core.stepped t.core with a := t.core.a, f := t.core.f } ∧
    (t.core.a.toNat : Int) = (if flagN s.core.f = true
      then (s.core.a.toNat : Int) - daaAmount s.core.a.toNat (flagH s.core.f) (flagC s.core.f)
      else (s.core.a.toNat : Int) + daaAmount s.core.a.toNat (flagH s.core.f) (flagC s.core.f)) % 256 ∧
    FlagsSZXY t.core.a t.core.f ∧ ParityRule t.core.a t.core.f ∧
    flagH t.core.f = (if flagN s.core.f = true then flagH s.core.f && decide (s.core.a.toNat % 16 < 6)
      else decide (s.core.a.toNat % 16 > 9)) ∧
    flagN t.core.f = flagN s.core.f ∧ flagC t.core.f = (decide (s.core.a.toNat > 153) || flagC s.core.f)) ∧
  (Encoded .cpl [0x2F] 1 ∧ Runs .cpl 4 true fun s t => Quiet s t ∧
    t.core = { s.core.stepped t.core with a := t.core.a, f := t.core.f } ∧ t.core.a.toNat = 255 - s.core.a.toNat ∧
    flagH t.core.f = true ∧ flagN t.core.f = true ∧ FlagsYX t.core.a t.core.f ∧ FlagsKeptSZP s.core.f t.core.f ∧
    flagC t.core.f = flagC s.core.f) ∧
  (∀ y, Encoded (.neg y) [0xED, op8 (0x44 + 8 * y.toNat)] 2 ∧ Runs (.neg y) 8 true fun s t => Quiet s t ∧
    t.core = { s.core.stepped t.core with a := t.core.a, f := t.core.f } ∧
    SubtractorRule 0 s.core.a false t.core.a t.core.f ∧ FlagsYX t.core.a t.core.f ∧
    flagC t.core.f = decide (s.core.a ≠ 0) ∧ flagP t.core.f = decide (s.core.a = 0x80)) ∧
  (Encoded .ccf [0x3F] 1 ∧ Runs .ccf 4 true fun s t => Quiet s t ∧
    t.core = { s.core.stepped t.core with f := t.core.f } ∧ flagH t.core.f = flagC s.core.f ∧
    flagC t.core.f = !flagC s.core.f ∧ flagN t.core.f = false ∧ FlagsKeptSZP s.core.f t.core.f ∧
    (s.cfg.scfCcfXy = .a → FlagsYX s.core.a t.core.f) ∧
    (s.cfg.scfCcfXy = .aOrF → FlagsYX (s.core.a ||| s.core.f) t.core.f) ∧
    (s.cfg.scfCcfXy = .zilogQ → FlagsYX ((s.core.q ^^^ s.core.f) ||| s.core.a) t.core.f)) ∧
  (Encoded .scf [0x37] 1 ∧ Runs .scf 4 true fun s t => Quiet s t ∧
    t.core = { s.core.stepped t.core with f := t.core.f } ∧ flagH t.core.f = false ∧
    flagC t.core.f = true ∧ flagN t.core.f = false ∧ FlagsKeptSZP s.core.f t.core.f ∧
    (s.cfg.scfCcfXy = .a → FlagsYX s.core.a t.core.f) ∧
    (s.cfg.scfCcfXy = .aOrF → FlagsYX (s.core.a ||| s.core.f) t.core.f) ∧
    (s.cfg.scfCcfXy = .zilogQ → FlagsYX ((s.core.q ^^^ s.core.f) ||| s.core.a) t.core.f))

/-- The byte that holds the two decimal digits of a number below 100. -/
def bcd (n : Nat) : Byte := BitVec.ofNat 8 (n / 10 % 10 * 16 + n % 10)

/-- R270, R243, R245: DAA right after ADD A,n of two decimal numbers gives their sum's digits and carry, and after SUB n their
difference's digits and borrow. -/
def Obligations.DaaIsDecimal : Prop :=
  ∀ (x y : Fin 100) (s t u : State), s.core.a = bcd x.val →
    (exec (.addAN (bcd y.val)) s = .next t → exec .daa t = .next u →
      u.core.a = bcd ((x.val + y.val) % 100) ∧ (flagC u.core.f = true ↔ 100 ≤ x.val + y.val)) ∧
    (exec (.subN (bcd y.val)) s = .next t → exec .daa t = .next u →
      u.core.a = bcd ((x.val + 100 - y.val) % 100) ∧ (flagC u.core.f = true ↔ x.val < y.val))

/-- R275 to R281, R283, R285: NOP, HALT, DI, EI, IM 0 to 2, the undefined ED opcodes and the ignored prefix. -/
def Obligations.CpuControl : Prop :=
  (Encoded .nop [0x00] 1 ∧ Runs .nop 4 false fun s t => Quiet s t ∧ t.core = s.core.stepped t.core) ∧
  (Encoded .halt [0x76] 1 ∧ Runs .halt 4 false fun s t => Quiet s t ∧
    t.core = { s.core.stepped t.core with halted := true }) ∧
  (Encoded .di [0xF3] 1 ∧ Runs .di 4 false fun s t => Quiet s t ∧
    t.core = { s.core.stepped t.core with iff1 := false, iff2 := false }) ∧
  (Encoded .ei [0xFB] 1 ∧ ∀ s, ∃ t, exec .ei s = .next t ∧ Quiet s t ∧
    t.core = { s.core with
      iff1 := true, iff2 := true, eiDelay := true, prefixBlock := false, ldair := false, q := 0, t := s.core.t + 4 }) ∧
  (∀ k, Encoded (.im0 k) [0xED, op8 ([0x46, 0x4E, 0x66, 0x6E].getD k.toNat 0)] 2 ∧
    Runs (.im0 k) 8 false fun s t => Quiet s t ∧ t.core = { s.core.stepped t.core with im := .im0 }) ∧
  (∀ k, Encoded (.im1 k) [0xED, op8 ([0x56, 0x76].getD k.toNat 0)] 2 ∧
    Runs (.im1 k) 8 false fun s t => Quiet s t ∧ t.core = { s.core.stepped t.core with im := .im1 }) ∧
  (∀ k, Encoded (.im2 k) [0xED, op8 ([0x5E, 0x7E].getD k.toNat 0)] 2 ∧
    Runs (.im2 k) 8 false fun s t => Quiet s t ∧ t.core = { s.core.stepped t.core with im := .im2 }) ∧
  (∀ op : Byte, (op.toNat < 0x40 ∨ (0x80 ≤ op.toNat ∧ op.toNat < 0xA0) ∨
      (0xA0 ≤ op.toNat ∧ op.toNat < 0xC0 ∧ 4 ≤ op.toNat % 8) ∨ 0xC0 ≤ op.toNat ∨ op.toNat = 0x77 ∨ op.toNat = 0x7F) →
    Encoded (.noni op) [0xED, op] 2 ∧
    Runs (.noni op) 8 false fun s t => Quiet s t ∧ t.core = s.core.stepped t.core) ∧
  (∀ x, encode (.ignoredPrefix x) = [x.prefixByte] ∧ m1Count (.ignoredPrefix x) = 1 ∧
    ∀ s, ∃ t, exec (.ignoredPrefix x) s = .next t ∧ Quiet s t ∧
      t.core = { s.core with eiDelay := false, prefixBlock := true, ldair := false, q := 0, t := s.core.t + 4 })

/-- R286, R124(d), R132, R125: a DD or FD prefix before an opcode it leaves alone runs that opcode's instruction, on H, L and HL,
in 4 more T-states. A prefix whose instruction is still to be fetched (`prefixCb`, `prefixDd`, `prefixEd`, `prefixFd`, `prefixDdCb`,
`prefixFdCb`) goes on fetching and runs that instruction, from every state; with no TR-DOS hook it is the instruction the bytes
at PC complete, its remaining M1 cycles counted. What such a term does is the model's choice (log entry 11). -/
def Obligations.PrefixedForms : Prop :=
  (∀ (x : IdxReg) (op : Instr), op.unaffected = true →
    Encoded (.ddFd x op) (x.prefixByte :: encode op) 2 ∧
    ∀ s, exec (.ddFd x op) s = exec op (s.mapCore fun c => { c with t := c.t + 4 }) ∧
      ∃ t, exec (.ddFd x op) s = .next t ∧ s.core.t + 8 ≤ t.core.t) ∧
  (∀ (i : Instr) (s : State), i.isLonePrefix = true →
    (∃ t, exec i s = .next t) ∧
    (∀ (j : Instr) (rest : List Byte), s.cfg.trdosHook = .identity →
      decode (encode i ++ s.bytesAtPc 3) = some (j, rest) →
      exec i s = exec j (s.mapCore fun c =>
        { c with pc := c.pc + BitVec.ofNat 16 (3 - rest.length), r := refreshN (m1Count j - (encode i).length) c.r })))

/-- R300 to R307: the 16-bit arithmetic. -/
def Obligations.PairArithmetic : Prop :=
  (∀ ss, Encoded (.addHlSs ss) [op8 (0x09 + 16 * ss.code.toNat)] 1 ∧ Runs (.addHlSs ss) 11 true fun s t => Quiet s t ∧
    t.core = { s.core.stepped t.core with h := t.core.h, l := t.core.l, f := t.core.f, memptr := s.core.hl + 1 } ∧
    Add16Rule s.core.hl (s.core.rp ss) t.core.hl s.core.f t.core.f) ∧
  (∀ ss, Encoded (.adcHlSs ss) [0xED, op8 (0x4A + 16 * ss.code.toNat)] 2 ∧
    Runs (.adcHlSs ss) 15 true fun s t => Quiet s t ∧
    t.core = { s.core.stepped t.core with h := t.core.h, l := t.core.l, f := t.core.f, memptr := s.core.hl + 1 } ∧
    (let a := s.core.hl; let b := s.core.rp ss; let c := carryNat (flagC s.core.f); let r := t.core.hl; let f := t.core.f
     r.toNat = (a.toNat + b.toNat + c) % 65536 ∧ flagS f = r.getLsbD 15 ∧ flagZ f = decide (r = 0) ∧
     flagY f = r.getLsbD 13 ∧ flagX f = r.getLsbD 11 ∧ flagH f = decide (a.toNat % 4096 + b.toNat % 4096 + c > 4095) ∧
     flagP f = (a.getLsbD 15 == b.getLsbD 15 && r.getLsbD 15 != a.getLsbD 15) ∧ flagN f = false ∧
     flagC f = decide (a.toNat + b.toNat + c > 65535))) ∧
  (∀ ss, Encoded (.sbcHlSs ss) [0xED, op8 (0x42 + 16 * ss.code.toNat)] 2 ∧
    Runs (.sbcHlSs ss) 15 true fun s t => Quiet s t ∧
    t.core = { s.core.stepped t.core with h := t.core.h, l := t.core.l, f := t.core.f, memptr := s.core.hl + 1 } ∧
    (let a := s.core.hl; let b := s.core.rp ss; let c := carryNat (flagC s.core.f); let r := t.core.hl; let f := t.core.f
     (r.toNat : Int) = ((a.toNat : Int) - b.toNat - c) % 65536 ∧ flagS f = r.getLsbD 15 ∧ flagZ f = decide (r = 0) ∧
     flagY f = r.getLsbD 13 ∧ flagX f = r.getLsbD 11 ∧
     flagH f = decide ((a.toNat % 4096 : Int) - (b.toNat % 4096 : Nat) - c < 0) ∧
     flagP f = (a.getLsbD 15 != b.getLsbD 15 && r.getLsbD 15 != a.getLsbD 15) ∧ flagN f = true ∧
     flagC f = decide ((a.toNat : Int) - b.toNat - c < 0))) ∧
  (∀ pp, Encoded (.addIxPp pp) [0xDD, op8 (0x09 + 16 * pp.code.toNat)] 2 ∧
    Runs (.addIxPp pp) 15 true fun s t => Quiet s t ∧
    t.core = { s.core.stepped t.core with ix := t.core.ix, f := t.core.f, memptr := s.core.ix + 1 } ∧
    Add16Rule s.core.ix (match pp with | .bc => s.core.bc | .de => s.core.de | .xy => s.core.ix | .sp => s.core.sp)
      t.core.ix s.core.f t.core.f) ∧
  (∀ pp, Encoded (.addIyPp pp) [0xFD, op8 (0x09 + 16 * pp.code.toNat)] 2 ∧
    Runs (.addIyPp pp) 15 true fun s t => Quiet s t ∧
    t.core = { s.core.stepped t.core with iy := t.core.iy, f := t.core.f, memptr := s.core.iy + 1 } ∧
    Add16Rule s.core.iy (match pp with | .bc => s.core.bc | .de => s.core.de | .xy => s.core.iy | .sp => s.core.sp)
      t.core.iy s.core.f t.core.f) ∧
  (∀ ss, Encoded (.incSs ss) [op8 (0x03 + 16 * ss.code.toNat)] 1 ∧ Runs (.incSs ss) 6 false fun s t => Quiet s t ∧
    t.core = (s.core.stepped t.core).setRp ss (s.core.rp ss + 1)) ∧
  (∀ ss, Encoded (.decSs ss) [op8 (0x0B + 16 * ss.code.toNat)] 1 ∧ Runs (.decSs ss) 6 false fun s t => Quiet s t ∧
    t.core = (s.core.stepped t.core).setRp ss (s.core.rp ss - 1)) ∧
  (Encoded .incIx [0xDD, 0x23] 2 ∧ Runs .incIx 10 false fun s t => Quiet s t ∧
    t.core = { s.core.stepped t.core with ix := s.core.ix + 1 }) ∧
  (Encoded .incIy [0xFD, 0x23] 2 ∧ Runs .incIy 10 false fun s t => Quiet s t ∧
    t.core = { s.core.stepped t.core with iy := s.core.iy + 1 }) ∧
  (Encoded .decIx [0xDD, 0x2B] 2 ∧ Runs .decIx 10 false fun s t => Quiet s t ∧
    t.core = { s.core.stepped t.core with ix := s.core.ix - 1 }) ∧
  (Encoded .decIy [0xFD, 0x2B] 2 ∧ Runs .decIy 10 false fun s t => Quiet s t ∧
    t.core = { s.core.stepped t.core with iy := s.core.iy - 1 })

/-! ### Rotates, shifts and bits -/

/-- An accumulator rotate (R320): the result and carry of `op`, H = N = 0, Y and X from A, S, Z and P/V kept. -/
def RotatesA (i : Instr) (byte : Nat) (op : RotOp) : Prop :=
  Encoded i [op8 byte] 1 ∧ Runs i 4 true fun s t => Quiet s t ∧
    t.core = { s.core.stepped t.core with a := t.core.a, f := t.core.f } ∧
    RotRule op s.core.a (flagC s.core.f) t.core.a (flagC t.core.f) ∧ flagH t.core.f = false ∧ flagN t.core.f = false ∧
    FlagsYX t.core.a t.core.f ∧ FlagsKeptSZP s.core.f t.core.f

/-- The flags of a CB rotate or shift to `r` (R321). -/
def RotFlags (r f : Byte) : Prop := FlagsSZXY r f ∧ flagH f = false ∧ ParityRule r f ∧ flagN f = false

/-- A CB rotate or shift of a register (R322). -/
def RotatesR (ofR : Reg8 → Instr) (op : RotOp) : Prop :=
  ∀ r, Encoded (ofR r) [0xCB, op8 (8 * op.code.toNat + r.code.toNat)] 2 ∧ Runs (ofR r) 8 true fun s t => Quiet s t ∧
    ∃ v, t.core = { (s.core.stepped t.core).setReg8 r v with f := t.core.f } ∧
      RotRule op (s.core.reg8 r) (flagC s.core.f) v (flagC t.core.f) ∧ RotFlags v t.core.f

/-- An indexed rotate or shift in `n` T-states: the byte stored is also written to the register, if any (R324). -/
def RotatesIndexed (i : Instr) (bytes : List Byte) (op : RotOp) (r : Option Reg8) (a : State → Word) : Prop :=
  Encoded i bytes 2 ∧ Runs i 23 true fun s t => ∃ v, Stores s t (a s) v ∧
    t.core = { (match r with
      | some r => (s.core.stepped t.core).setReg8 r v
      | none => s.core.stepped t.core) with f := t.core.f, memptr := a s } ∧
    RotRule op (s.readByte (a s)) (flagC s.core.f) v (flagC t.core.f) ∧ RotFlags v t.core.f

/-- RLD or RRD: A and the byte `m` at HL become the given values (R325, R326). -/
def RotatesDigits (i : Instr) (bytes : List Byte) (newA newM : Nat → Nat → Nat) : Prop :=
  Encoded i bytes 2 ∧ Runs i 18 true fun s t =>
    t.core = { s.core.stepped t.core with a := t.core.a, f := t.core.f, memptr := s.core.hl + 1 } ∧
    t.core.a.toNat = newA s.core.a.toNat (s.readByte s.core.hl).toNat ∧
    (∃ v, Stores s t s.core.hl v ∧ v.toNat = newM s.core.a.toNat (s.readByte s.core.hl).toNat) ∧
    FlagsSZXY t.core.a t.core.f ∧ flagH t.core.f = false ∧ ParityRule t.core.a t.core.f ∧ flagN t.core.f = false ∧
    flagC t.core.f = flagC s.core.f

/-- R320 to R326: the rotates and shifts, RLD and RRD. -/
def Obligations.RotatesAndShifts : Prop :=
  RotatesA .rlca 0x07 .rlc ∧ RotatesA .rrca 0x0F .rrc ∧ RotatesA .rla 0x17 .rl ∧ RotatesA .rra 0x1F .rr ∧
  RotatesR .rlcR .rlc ∧ RotatesR .rrcR .rrc ∧ RotatesR .rlR .rl ∧ RotatesR .rrR .rr ∧
  RotatesR .slaR .sla ∧ RotatesR .sraR .sra ∧ RotatesR .sllR .sll ∧ RotatesR .srlR .srl ∧
  (∀ op, Encoded (.rotMHl op) [0xCB, op8 (8 * op.code.toNat + 6)] 2 ∧ Runs (.rotMHl op) 15 true fun s t =>
    t.core = { s.core.stepped t.core with f := t.core.f } ∧
    ∃ v, Stores s t s.core.hl v ∧ RotRule op (s.readByte s.core.hl) (flagC s.core.f) v (flagC t.core.f) ∧
      RotFlags v t.core.f) ∧
  (∀ op d, RotatesIndexed (.rotMIx op d) [0xDD, 0xCB, d, op8 (8 * op.code.toNat + 6)] op none
    fun s => s.core.ix + d.signExtend 16) ∧
  (∀ op r d, RotatesIndexed (.rotMIxR op r d) [0xDD, 0xCB, d, op8 (8 * op.code.toNat + r.code.toNat)] op (some r)
    fun s => s.core.ix + d.signExtend 16) ∧
  (∀ op d, RotatesIndexed (.rotMIy op d) [0xFD, 0xCB, d, op8 (8 * op.code.toNat + 6)] op none
    fun s => s.core.iy + d.signExtend 16) ∧
  (∀ op r d, RotatesIndexed (.rotMIyR op r d) [0xFD, 0xCB, d, op8 (8 * op.code.toNat + r.code.toNat)] op (some r)
    fun s => s.core.iy + d.signExtend 16) ∧
  RotatesDigits .rld [0xED, 0x6F] (fun a m => a / 16 * 16 + m / 16) (fun a m => m % 16 * 16 + a % 16) ∧
  RotatesDigits .rrd [0xED, 0x67] (fun a m => a / 16 * 16 + m % 16) (fun a m => a % 16 * 16 + m / 16)

/-- The flags of BIT b of `v`, Y and X from `xy` (R350). -/
def BitRule (b : BitVec 3) (v xy f0 f : Byte) : Prop :=
  flagZ f = !v.getLsbD b.toNat ∧ flagP f = !v.getLsbD b.toNat ∧
    flagS f = (decide (b.toNat = 7) && v.getLsbD b.toNat) ∧ flagH f = true ∧ flagN f = false ∧ FlagsYX xy f ∧
    flagC f = flagC f0

/-- R350 to R352: BIT in its three operand forms, every z of the indexed one. -/
def Obligations.BitTests : Prop :=
  (∀ b r, Encoded (.bitR b r) [0xCB, op8 (0x40 + 8 * b.toNat + r.code.toNat)] 2 ∧
    Runs (.bitR b r) 8 true fun s t => Quiet s t ∧ t.core = { s.core.stepped t.core with f := t.core.f } ∧
      BitRule b (s.core.reg8 r) (s.core.reg8 r) s.core.f t.core.f) ∧
  (∀ b, Encoded (.bitMHl b) [0xCB, op8 (0x46 + 8 * b.toNat)] 2 ∧
    Runs (.bitMHl b) 12 true fun s t => Quiet s t ∧ t.core = { s.core.stepped t.core with f := t.core.f } ∧
      BitRule b (s.readByte s.core.hl) (hiByte s.core.memptr) s.core.f t.core.f) ∧
  (∀ b z d, Encoded (.bitMIx b z d) [0xDD, 0xCB, d, op8 (0x40 + 8 * b.toNat + z.toNat)] 2 ∧
    Runs (.bitMIx b z d) 20 true fun s t => Quiet s t ∧
      t.core = { s.core.stepped t.core with f := t.core.f, memptr := s.core.ix + d.signExtend 16 } ∧
      BitRule b (s.readByte (s.core.ix + d.signExtend 16)) (hiByte (s.core.ix + d.signExtend 16)) s.core.f t.core.f) ∧
  (∀ b z d, Encoded (.bitMIy b z d) [0xFD, 0xCB, d, op8 (0x40 + 8 * b.toNat + z.toNat)] 2 ∧
    Runs (.bitMIy b z d) 20 true fun s t => Quiet s t ∧
      t.core = { s.core.stepped t.core with f := t.core.f, memptr := s.core.iy + d.signExtend 16 } ∧
      BitRule b (s.readByte (s.core.iy + d.signExtend 16)) (hiByte (s.core.iy + d.signExtend 16)) s.core.f t.core.f)

/-- `v'` is `v` with bit `b` at `on` and every other bit as it was (R353, R356). -/
def BitPut (b : BitVec 3) (on : Bool) (v v' : Byte) : Prop :=
  ∀ k : Fin 8, v'.getLsbD k.val = if k.val = b.toNat then on else v.getLsbD k.val

/-- SET or RES in its operand forms, `x` being the x field of its opcodes (R353 to R358). -/
def PutForms (x : Nat) (on : Bool) (ofR : BitVec 3 → Reg8 → Instr) (ofHl : BitVec 3 → Instr)
    (ofIx ofIy : BitVec 3 → Byte → Instr) (ofIxR ofIyR : BitVec 3 → Reg8 → Byte → Instr) : Prop :=
  (∀ b r, Encoded (ofR b r) [0xCB, op8 (64 * x + 8 * b.toNat + r.code.toNat)] 2 ∧
    Runs (ofR b r) 8 false fun s t => Quiet s t ∧
      ∃ v, t.core = (s.core.stepped t.core).setReg8 r v ∧ BitPut b on (s.core.reg8 r) v) ∧
  (∀ b, Encoded (ofHl b) [0xCB, op8 (64 * x + 8 * b.toNat + 6)] 2 ∧
    Runs (ofHl b) 15 false fun s t => t.core = s.core.stepped t.core ∧
      ∃ v, Stores s t s.core.hl v ∧ BitPut b on (s.readByte s.core.hl) v) ∧
  (∀ b d, Encoded (ofIx b d) [0xDD, 0xCB, d, op8 (64 * x + 8 * b.toNat + 6)] 2 ∧
    Runs (ofIx b d) 23 false fun s t => t.core = { s.core.stepped t.core with memptr := s.core.ix + d.signExtend 16 } ∧
      ∃ v, Stores s t (s.core.ix + d.signExtend 16) v ∧ BitPut b on (s.readByte (s.core.ix + d.signExtend 16)) v) ∧
  (∀ b d, Encoded (ofIy b d) [0xFD, 0xCB, d, op8 (64 * x + 8 * b.toNat + 6)] 2 ∧
    Runs (ofIy b d) 23 false fun s t => t.core = { s.core.stepped t.core with memptr := s.core.iy + d.signExtend 16 } ∧
      ∃ v, Stores s t (s.core.iy + d.signExtend 16) v ∧ BitPut b on (s.readByte (s.core.iy + d.signExtend 16)) v) ∧
  (∀ b r d, Encoded (ofIxR b r d) [0xDD, 0xCB, d, op8 (64 * x + 8 * b.toNat + r.code.toNat)] 2 ∧
    Runs (ofIxR b r d) 23 false fun s t => ∃ v, Stores s t (s.core.ix + d.signExtend 16) v ∧
      t.core = { (s.core.stepped t.core).setReg8 r v with memptr := s.core.ix + d.signExtend 16 } ∧
      BitPut b on (s.readByte (s.core.ix + d.signExtend 16)) v) ∧
  (∀ b r d, Encoded (ofIyR b r d) [0xFD, 0xCB, d, op8 (64 * x + 8 * b.toNat + r.code.toNat)] 2 ∧
    Runs (ofIyR b r d) 23 false fun s t => ∃ v, Stores s t (s.core.iy + d.signExtend 16) v ∧
      t.core = { (s.core.stepped t.core).setReg8 r v with memptr := s.core.iy + d.signExtend 16 } ∧
      BitPut b on (s.readByte (s.core.iy + d.signExtend 16)) v)

/-- R353 to R358: SET and RES put one bit of the operand and write no flag. -/
def Obligations.SetAndRes : Prop :=
  PutForms 3 true .setR .setMHl .setMIx .setMIy .setMIxR .setMIyR ∧
  PutForms 2 false .resR .resMHl .resMIx .resMIy .resMIxR .resMIyR

/-! ### Jumps, calls and returns -/

/-- `cond(cc)` (R42). -/
def condHolds (cc : Cond) (f : Byte) : Prop :=
  match cc with
  | .nz => f.getLsbD 6 = false
  | .z => f.getLsbD 6 = true
  | .nc => f.getLsbD 0 = false
  | .c => f.getLsbD 0 = true
  | .po => f.getLsbD 2 = false
  | .pe => f.getLsbD 2 = true
  | .p => f.getLsbD 7 = false
  | .m => f.getLsbD 7 = true

/-- `post` after a step of `n` T-states that writes no flag. -/
def After (i : Instr) (s : State) (n : Nat) (post : State → Prop) : Prop :=
  ∃ t, exec i s = .next t ∧ EndsStep s.core t.core n false ∧ post t

/-- R370 to R377, R42: the jumps, taken and not taken. -/
def Obligations.Jumps : Prop :=
  (∀ nn, Encoded (.jpNn nn) (0xC3 :: lowHigh nn) 1 ∧ Runs (.jpNn nn) 10 false fun s t => Quiet s t ∧
    t.core = { s.core.stepped t.core with pc := nn, memptr := nn }) ∧
  (∀ cc nn, Encoded (.jpCcNn cc nn) (op8 (0xC2 + 8 * cc.code.toNat) :: lowHigh nn) 1 ∧
    ∀ s, (condHolds cc s.core.f → After (.jpCcNn cc nn) s 10 fun t => Quiet s t ∧
        t.core = { s.core.stepped t.core with pc := nn, memptr := nn }) ∧
      (¬ condHolds cc s.core.f → After (.jpCcNn cc nn) s 10 fun t => Quiet s t ∧
        t.core = { s.core.stepped t.core with memptr := nn })) ∧
  (∀ e, Encoded (.jr e) [0x18, e] 1 ∧ Runs (.jr e) 12 false fun s t => Quiet s t ∧
    t.core = { s.core.stepped t.core with
      pc := BitVec.ofInt 16 (s.core.pc.toInt + e.toInt), memptr := BitVec.ofInt 16 (s.core.pc.toInt + e.toInt) }) ∧
  (∀ cc e, Encoded (.jrCc cc e) [op8 (8 * cc.code.toNat), e] 1 ∧
    ∀ s, (condHolds (JrCond.cond cc) s.core.f → After (.jrCc cc e) s 12 fun t => Quiet s t ∧
        t.core = { s.core.stepped t.core with
          pc := BitVec.ofInt 16 (s.core.pc.toInt + e.toInt), memptr := BitVec.ofInt 16 (s.core.pc.toInt + e.toInt) }) ∧
      (¬ condHolds (JrCond.cond cc) s.core.f → After (.jrCc cc e) s 7 fun t => Quiet s t ∧ t.core = s.core.stepped t.core)) ∧
  (Encoded .jpHl [0xE9] 1 ∧ Runs .jpHl 4 false fun s t => Quiet s t ∧
    t.core = { s.core.stepped t.core with pc := s.core.hl }) ∧
  (Encoded .jpIx [0xDD, 0xE9] 2 ∧ Runs .jpIx 8 false fun s t => Quiet s t ∧
    t.core = { s.core.stepped t.core with pc := s.core.ix }) ∧
  (Encoded .jpIy [0xFD, 0xE9] 2 ∧ Runs .jpIy 8 false fun s t => Quiet s t ∧
    t.core = { s.core.stepped t.core with pc := s.core.iy }) ∧
  (∀ e, Encoded (.djnz e) [0x10, e] 1 ∧
    ∀ s, (s.core.b ≠ 1 → After (.djnz e) s 13 fun t => Quiet s t ∧
        t.core = { s.core.stepped t.core with
          b := s.core.b - 1, pc := BitVec.ofInt 16 (s.core.pc.toInt + e.toInt)
          memptr := BitVec.ofInt 16 (s.core.pc.toInt + e.toInt) }) ∧
      (s.core.b = 1 → After (.djnz e) s 8 fun t => Quiet s t ∧
        t.core = { s.core.stepped t.core with b := 0 }))

/-- A call of `target`: the PC after the instruction is pushed (R17, R378). -/
def Calls (s t : State) (target : Word) : Prop :=
  StoresTwo s t (s.core.sp - 2) (loByte s.core.pc) (hiByte s.core.pc) ∧
    t.core = { s.core.stepped t.core with sp := s.core.sp - 2, pc := target, memptr := target }

/-- A return: PC and MEMPTR from the stack (R17, R380). -/
def Returns (s t : State) : Prop :=
  Quiet s t ∧ t.core = { s.core.stepped t.core with
    sp := s.core.sp + 2, pc := wordAt s s.core.sp, memptr := wordAt s s.core.sp }

/-- R378 to R382, R384, R385, R42, R444, R56: calls, returns and restarts, taken and not taken; RETN and RETI restore IFF1 from IFF2, and
only RETI sets `reti_seen`. -/
def Obligations.CallsAndReturns : Prop :=
  (∀ nn, Encoded (.callNn nn) (0xCD :: lowHigh nn) 1 ∧ Runs (.callNn nn) 17 false fun s t => Calls s t nn) ∧
  (∀ cc nn, Encoded (.callCcNn cc nn) (op8 (0xC4 + 8 * cc.code.toNat) :: lowHigh nn) 1 ∧
    ∀ s, (condHolds cc s.core.f → After (.callCcNn cc nn) s 17 fun t => Calls s t nn) ∧
      (¬ condHolds cc s.core.f → After (.callCcNn cc nn) s 10 fun t => Quiet s t ∧
        t.core = { s.core.stepped t.core with memptr := nn })) ∧
  (Encoded .ret [0xC9] 1 ∧ Runs .ret 10 false Returns) ∧
  (∀ cc, Encoded (.retCc cc) [op8 (0xC0 + 8 * cc.code.toNat)] 1 ∧
    ∀ s, (condHolds cc s.core.f → After (.retCc cc) s 11 fun t => Returns s t) ∧
      (¬ condHolds cc s.core.f → After (.retCc cc) s 5 fun t => Quiet s t ∧ t.core = s.core.stepped t.core)) ∧
  (∀ y, Encoded (.rst y) [op8 (0xC7 + 8 * y.toNat)] 1 ∧
    Runs (.rst y) 11 false fun s t => Calls s t (BitVec.ofNat 16 (y.toNat * 8))) ∧
  (∀ y : BitVec 3, y ≠ 1 → Encoded (.retn y) [0xED, op8 (0x45 + 8 * y.toNat)] 2 ∧
    Runs (.retn y) 14 false fun s t => Quiet s t ∧ t.core = { s.core.stepped t.core with
      sp := s.core.sp + 2, pc := wordAt s s.core.sp, memptr := wordAt s s.core.sp, iff1 := s.core.iff2 }) ∧
  (Encoded .reti [0xED, 0x4D] 2 ∧ Runs .reti 14 false fun s t => Quiet s t ∧ t.core = { s.core.stepped t.core with
    sp := s.core.sp + 2, pc := wordAt s s.core.sp, memptr := wordAt s s.core.sp, iff1 := s.core.iff2
    retiSeen := true })

/-! ### Input and output -/

/-- A step that reads a port: nothing changes outside the stepping module but the free values the external devices took, and
every address reads as before (R484, R486). -/
def ReadsPort (s t : State) : Prop :=
  (∃ n, t = ({ s with draws := n }).setCore t.core) ∧ ∀ b, t.readByte b = s.readByte b

/-- The flags of IN r,(C) for the byte `v` (R401). -/
def InRule (v f0 f : Byte) : Prop :=
  FlagsSZXY v f ∧ flagH f = false ∧ ParityRule v f ∧ flagN f = false ∧ flagC f = flagC f0

/-- R400 to R402, R82: the port reads of one byte. -/
def Obligations.Inputs : Prop :=
  (∀ n, Encoded (.inAN n) [0xDB, n] 1 ∧ Runs (.inAN n) 11 false fun s t => ReadsPort s t ∧
    t.core = { s.core.stepped t.core with a := s.portValue (pair s.core.a n), memptr := pair s.core.a n + 1 }) ∧
  (∀ r, Encoded (.inRC r) [0xED, op8 (0x40 + 8 * r.code.toNat)] 2 ∧ Runs (.inRC r) 12 true fun s t => ReadsPort s t ∧
    t.core = { (s.core.stepped t.core).setReg8 r (s.portValue s.core.bc) with
      f := t.core.f, memptr := s.core.bc + 1 } ∧ InRule (s.portValue s.core.bc) s.core.f t.core.f) ∧
  (Encoded .inC [0xED, 0x70] 2 ∧ Runs .inC 12 true fun s t => ReadsPort s t ∧
    t.core = { s.core.stepped t.core with f := t.core.f, memptr := s.core.bc + 1 } ∧
    InRule (s.portValue s.core.bc) s.core.f t.core.f)

/-- A step of `n` T-states that writes `v` to a port: the state is that of the port write at the time the step ends, but for the
stepping module, which keeps that write's latch; RAM is as before (R485, R478). -/
def WritesPort (s t : State) (port : Word) (v : Byte) (n : Nat) : Prop :=
  t = (s.portWrite port v (s.core.t + n)).setCore t.core ∧ t.heap = s.heap ∧
    t.core.port7FFD = (s.portWrite port v (s.core.t + n)).core.port7FFD

/-- R408 to R410, R82: the port writes of one byte. -/
def Obligations.Outputs : Prop :=
  (∀ n, Encoded (.outNA n) [0xD3, n] 1 ∧ Runs (.outNA n) 11 false fun s t =>
    WritesPort s t (pair s.core.a n) s.core.a 11 ∧
    t.core = { s.core.stepped t.core with port7FFD := t.core.port7FFD, memptr := pair s.core.a (n + 1) }) ∧
  (∀ r, Encoded (.outCR r) [0xED, op8 (0x41 + 8 * r.code.toNat)] 2 ∧ Runs (.outCR r) 12 false fun s t =>
    WritesPort s t s.core.bc (s.core.reg8 r) 12 ∧
    t.core = { s.core.stepped t.core with port7FFD := t.core.port7FFD, memptr := s.core.bc + 1 }) ∧
  (Encoded .outC0 [0xED, 0x71] 2 ∧ Runs .outC0 12 false fun s t =>
    WritesPort s t s.core.bc s.cfg.outCZero 12 ∧
    t.core = { s.core.stepped t.core with port7FFD := t.core.port7FFD, memptr := s.core.bc + 1 })

/-- The block I/O flags for the byte `v`, the new B and the 9-bit sum `k` (R403). -/
def BlockIoRule (v b : Byte) (k : Nat) (f : Byte) : Prop :=
  FlagsSZXY b f ∧ flagH f = decide (k > 255) ∧ flagC f = decide (k > 255) ∧
    ParityRule (BitVec.ofNat 8 (k % 8) ^^^ b) f ∧ flagN f = v.getLsbD 7

/-- The flags of an iteration that repeats: as the others under `CLASSIC`; under `PC_HIGH` only S, Z, N and C are given (R403). -/
def BlockIoRepeatRule (k : BlockRepeatXy) (v b : Byte) (n : Nat) (f : Byte) : Prop :=
  match k with
  | .classic => BlockIoRule v b n f
  | .pcHigh => flagS f = b.getLsbD 7 ∧ flagZ f = decide (b = 0) ∧ flagN f = v.getLsbD 7 ∧ flagC f = decide (n > 255)

/-- An iteration repeats: a repeating instruction whose B does not reach 0 (R405). -/
def ioRepeats (rep : Bool) (s : State) : Bool := rep && s.core.b != 1

/-- The T-states of a block I/O iteration (R404, R405). -/
def ioTime (rep : Bool) (s : State) : Nat := if ioRepeats rep s then 21 else 16

/-- PC and the flags after a block I/O iteration of the byte `v` and the sum `k` (R403 to R405). -/
def BlockIoEnds (rep : Bool) (v : Byte) (k : Nat) (s t : State) : Prop :=
  (ioRepeats rep s = true → t.core.pc = s.core.pc - 2 ∧
    BlockIoRepeatRule s.cfg.blockRepeatXy v (s.core.b - 1) k t.core.f) ∧
  (ioRepeats rep s = false → t.core.pc = s.core.pc ∧ BlockIoRule v (s.core.b - 1) k t.core.f)

/-- An iteration of INI, IND, INIR or INDR: `v` is read from port BC and stored at HL; `step` is +1 or -1 (R404 to R407). -/
def InIteration (step : Word) (cStep : Byte) (rep : Bool) (s t : State) : Prop :=
  let v := s.portValue s.core.bc
  (∃ n, t = ({ s with heap := t.heap, draws := n }).setCore t.core) ∧
    (∀ b, t.readByte b = if s.isRam s.core.hl && s.sameByte s.core.hl b then v else s.readByte b) ∧
    HeapKept s t [s.core.hl] ∧
    t.core.hl = s.core.hl + step ∧
    t.core = { s.core.stepped t.core with
      b := s.core.b - 1, h := t.core.h, l := t.core.l, f := t.core.f, pc := t.core.pc, memptr := s.core.bc + step } ∧
    BlockIoEnds rep v (v.toNat + (s.core.c + cStep).toNat) s t

/-- An iteration of OUTI, OUTD, OTIR or OTDR: the byte at HL is written to port BC, B already counted down; `step` is +1 or -1
(R411 to R414). -/
def OutIteration (step : Word) (rep : Bool) (s t : State) : Prop :=
  let v := s.readByte s.core.hl
  let port := pair (s.core.b - 1) s.core.c
  let out := s.portWrite port v (s.core.t + ioTime rep s)
  (∃ n, t = ({ out with draws := n }).setCore t.core) ∧ t.heap = s.heap ∧ t.core.port7FFD = out.core.port7FFD ∧
    t.core.hl = s.core.hl + step ∧
    t.core = { s.core.stepped t.core with
      b := s.core.b - 1, h := t.core.h, l := t.core.l, f := t.core.f, pc := t.core.pc, memptr := port + step
      port7FFD := t.core.port7FFD } ∧
    BlockIoEnds rep v (v.toNat + t.core.l.toNat) s t

/-- R403 to R407, R411 to R414: the block input and output instructions. -/
def Obligations.BlockInputOutput : Prop :=
  (Encoded .ini [0xED, 0xA2] 2 ∧ RunsFor .ini (ioTime false) true (InIteration 1 1 false)) ∧
  (Encoded .ind [0xED, 0xAA] 2 ∧ RunsFor .ind (ioTime false) true (InIteration 0xFFFF 0xFF false)) ∧
  (Encoded .inir [0xED, 0xB2] 2 ∧ RunsFor .inir (ioTime true) true (InIteration 1 1 true)) ∧
  (Encoded .indr [0xED, 0xBA] 2 ∧ RunsFor .indr (ioTime true) true (InIteration 0xFFFF 0xFF true)) ∧
  (Encoded .outi [0xED, 0xA3] 2 ∧ RunsFor .outi (ioTime false) true (OutIteration 1 false)) ∧
  (Encoded .outd [0xED, 0xAB] 2 ∧ RunsFor .outd (ioTime false) true (OutIteration 0xFFFF false)) ∧
  (Encoded .otir [0xED, 0xB3] 2 ∧ RunsFor .otir (ioTime true) true (OutIteration 1 true)) ∧
  (Encoded .otdr [0xED, 0xBB] 2 ∧ RunsFor .otdr (ioTime true) true (OutIteration 0xFFFF true))
end

