-- ==== Sys2Proof/Laws/State.lean ====
section
/-!
SUPPORT. One lemma per field per update of the state and of a module, so that no proof unfolds a record update.
-/

namespace Sys2Proof

@[simp] theorem Quad.get_set_self {α : Type} (q : Quad α) (m : ModuleId) (v : α) : (q.set m v).get m = v := by
  cases m <;> rfl

theorem Quad.get_set_of_ne {α : Type} (q : Quad α) {m n : ModuleId} (h : n ≠ m) (v : α) : (q.set m v).get n = q.get n := by
  cases m <;> cases n <;> first | rfl | exact absurd rfl h

@[simp] theorem Quad.set_set {α : Type} (q : Quad α) (m : ModuleId) (v w : α) : (q.set m v).set m w = q.set m w := by
  cases m <;> rfl

@[simp] theorem Quad.set_get {α : Type} (q : Quad α) (m : ModuleId) : q.set m (q.get m) = q := by
  cases m <;> rfl

@[simp] theorem Quad.get_all {α : Type} (v : α) (m : ModuleId) : (Quad.all v).get m = v := by
  cases m <;> rfl

@[simp] theorem Quad.get_mapId {α : Type} (f : ModuleId → α → α) (q : Quad α) (m : ModuleId) :
    (q.mapId f).get m = f m (q.get m) := by
  cases m <;> rfl

namespace Machine

/-! ### The state with the stepping module replaced -/

@[simp] theorem State.core_setCore (s : State) (c : Module) : (s.setCore c).core = c := by
  simp [State.core, State.setCore]

@[simp] theorem State.setCore_setCore (s : State) (c d : Module) : (s.setCore c).setCore d = s.setCore d := by
  simp [State.setCore]

@[simp] theorem State.setCore_core (s : State) : s.setCore s.core = s := by
  simp [State.core, State.setCore]

@[simp] theorem State.core_mapCore (s : State) (f : Module → Module) : (s.mapCore f).core = f s.core := by
  simp [State.mapCore]

theorem State.mapCore_eq (s : State) (f : Module → Module) : s.mapCore f = s.setCore (f s.core) := rfl

theorem State.get_setCore_of_ne (s : State) (c : Module) {m : ModuleId} (h : m ≠ s.cur) :
    (s.setCore c).mods.get m = s.mods.get m := Quad.get_set_of_ne _ h _

@[simp] theorem State.setCore_cfg (s : State) (c : Module) : (s.setCore c).cfg = s.cfg := rfl
@[simp] theorem State.mapCore_cfg (s : State) (g : Module → Module) : (s.mapCore g).cfg = s.cfg := rfl
@[simp] theorem State.setCore_cur (s : State) (c : Module) : (s.setCore c).cur = s.cur := rfl
@[simp] theorem State.mapCore_cur (s : State) (g : Module → Module) : (s.mapCore g).cur = s.cur := rfl
@[simp] theorem State.setCore_heap (s : State) (c : Module) : (s.setCore c).heap = s.heap := rfl
@[simp] theorem State.mapCore_heap (s : State) (g : Module → Module) : (s.mapCore g).heap = s.heap := rfl
@[simp] theorem State.setCore_rom (s : State) (c : Module) : (s.setCore c).rom = s.rom := rfl
@[simp] theorem State.mapCore_rom (s : State) (g : Module → Module) : (s.mapCore g).rom = s.rom := rfl
@[simp] theorem State.setCore_frameNo (s : State) (c : Module) : (s.setCore c).frameNo = s.frameNo := rfl
@[simp] theorem State.mapCore_frameNo (s : State) (g : Module → Module) : (s.mapCore g).frameNo = s.frameNo := rfl
@[simp] theorem State.setCore_nmiLine (s : State) (c : Module) : (s.setCore c).nmiLine = s.nmiLine := rfl
@[simp] theorem State.mapCore_nmiLine (s : State) (g : Module → Module) : (s.mapCore g).nmiLine = s.nmiLine := rfl
@[simp] theorem State.setCore_resetReq (s : State) (c : Module) : (s.setCore c).resetReq = s.resetReq := rfl
@[simp] theorem State.mapCore_resetReq (s : State) (g : Module → Module) : (s.mapCore g).resetReq = s.resetReq := rfl
@[simp] theorem State.setCore_wallInt (s : State) (c : Module) : (s.setCore c).wallInt = s.wallInt := rfl
@[simp] theorem State.mapCore_wallInt (s : State) (g : Module → Module) : (s.mapCore g).wallInt = s.wallInt := rfl
@[simp] theorem State.setCore_frameStartPending (s : State) (c : Module) : (s.setCore c).frameStartPending = s.frameStartPending := rfl
@[simp] theorem State.mapCore_frameStartPending (s : State) (g : Module → Module) : (s.mapCore g).frameStartPending = s.frameStartPending := rfl
@[simp] theorem State.setCore_resetSeen (s : State) (c : Module) : (s.setCore c).resetSeen = s.resetSeen := rfl
@[simp] theorem State.mapCore_resetSeen (s : State) (g : Module → Module) : (s.mapCore g).resetSeen = s.resetSeen := rfl
@[simp] theorem State.setCore_borderCur (s : State) (c : Module) : (s.setCore c).borderCur = s.borderCur := rfl
@[simp] theorem State.mapCore_borderCur (s : State) (g : Module → Module) : (s.mapCore g).borderCur = s.borderCur := rfl
@[simp] theorem State.setCore_borderLine (s : State) (c : Module) : (s.setCore c).borderLine = s.borderLine := rfl
@[simp] theorem State.mapCore_borderLine (s : State) (g : Module → Module) : (s.mapCore g).borderLine = s.borderLine := rfl
@[simp] theorem State.setCore_keysLive (s : State) (c : Module) : (s.setCore c).keysLive = s.keysLive := rfl
@[simp] theorem State.mapCore_keysLive (s : State) (g : Module → Module) : (s.mapCore g).keysLive = s.keysLive := rfl
@[simp] theorem State.setCore_keysVisible (s : State) (c : Module) : (s.setCore c).keysVisible = s.keysVisible := rfl
@[simp] theorem State.mapCore_keysVisible (s : State) (g : Module → Module) : (s.mapCore g).keysVisible = s.keysVisible := rfl
@[simp] theorem State.setCore_joyLive (s : State) (c : Module) : (s.setCore c).joyLive = s.joyLive := rfl
@[simp] theorem State.mapCore_joyLive (s : State) (g : Module → Module) : (s.mapCore g).joyLive = s.joyLive := rfl
@[simp] theorem State.setCore_joyVisible (s : State) (c : Module) : (s.setCore c).joyVisible = s.joyVisible := rfl
@[simp] theorem State.mapCore_joyVisible (s : State) (g : Module → Module) : (s.mapCore g).joyVisible = s.joyVisible := rfl
@[simp] theorem State.setCore_tapeIn (s : State) (c : Module) : (s.setCore c).tapeIn = s.tapeIn := rfl
@[simp] theorem State.mapCore_tapeIn (s : State) (g : Module → Module) : (s.mapCore g).tapeIn = s.tapeIn := rfl
@[simp] theorem State.setCore_hostInputs (s : State) (c : Module) : (s.setCore c).hostInputs = s.hostInputs := rfl
@[simp] theorem State.mapCore_hostInputs (s : State) (g : Module → Module) : (s.mapCore g).hostInputs = s.hostInputs := rfl
@[simp] theorem State.setCore_draws (s : State) (c : Module) : (s.setCore c).draws = s.draws := rfl
@[simp] theorem State.mapCore_draws (s : State) (g : Module → Module) : (s.mapCore g).draws = s.draws := rfl

/-! ### Free values taken -/

@[simp] theorem State.core_drew (s : State) (n : Nat) : (s.drew n).core = s.core := rfl
@[simp] theorem State.drew_draws (s : State) (n : Nat) : (s.drew n).draws = s.draws + n := rfl
@[simp] theorem State.drew_cfg (s : State) (n : Nat) : (s.drew n).cfg = s.cfg := rfl
@[simp] theorem State.drew_mods (s : State) (n : Nat) : (s.drew n).mods = s.mods := rfl
@[simp] theorem State.drew_cur (s : State) (n : Nat) : (s.drew n).cur = s.cur := rfl
@[simp] theorem State.drew_heap (s : State) (n : Nat) : (s.drew n).heap = s.heap := rfl
@[simp] theorem State.drew_rom (s : State) (n : Nat) : (s.drew n).rom = s.rom := rfl
@[simp] theorem State.drew_frameNo (s : State) (n : Nat) : (s.drew n).frameNo = s.frameNo := rfl
@[simp] theorem State.drew_nmiLine (s : State) (n : Nat) : (s.drew n).nmiLine = s.nmiLine := rfl
@[simp] theorem State.drew_resetReq (s : State) (n : Nat) : (s.drew n).resetReq = s.resetReq := rfl
@[simp] theorem State.drew_wallInt (s : State) (n : Nat) : (s.drew n).wallInt = s.wallInt := rfl
@[simp] theorem State.drew_frameStartPending (s : State) (n : Nat) : (s.drew n).frameStartPending = s.frameStartPending := rfl
@[simp] theorem State.drew_resetSeen (s : State) (n : Nat) : (s.drew n).resetSeen = s.resetSeen := rfl
@[simp] theorem State.drew_borderCur (s : State) (n : Nat) : (s.drew n).borderCur = s.borderCur := rfl
@[simp] theorem State.drew_borderLine (s : State) (n : Nat) : (s.drew n).borderLine = s.borderLine := rfl
@[simp] theorem State.drew_keysLive (s : State) (n : Nat) : (s.drew n).keysLive = s.keysLive := rfl
@[simp] theorem State.drew_keysVisible (s : State) (n : Nat) : (s.drew n).keysVisible = s.keysVisible := rfl
@[simp] theorem State.drew_joyLive (s : State) (n : Nat) : (s.drew n).joyLive = s.joyLive := rfl
@[simp] theorem State.drew_joyVisible (s : State) (n : Nat) : (s.drew n).joyVisible = s.joyVisible := rfl
@[simp] theorem State.drew_tapeIn (s : State) (n : Nat) : (s.drew n).tapeIn = s.tapeIn := rfl
@[simp] theorem State.drew_hostInputs (s : State) (n : Nat) : (s.drew n).hostInputs = s.hostInputs := rfl

/-! ### A byte or a word written -/

theorem State.writeByte_eq (s : State) (a : Word) (v : Byte) :
    s.writeByte a v = { s with heap := (s.writeByte a v).heap } := by
  unfold State.writeByte; split <;> rfl

@[simp] theorem State.core_writeByte (s : State) (a : Word) (v : Byte) : (s.writeByte a v).core = s.core := by
  rw [State.writeByte_eq]; rfl

@[simp] theorem State.core_writeWord (s : State) (a v : Word) : (s.writeWord a v).core = s.core := by
  simp [State.writeWord]

@[simp] theorem State.writeByte_cfg (s : State) (a : Word) (v : Byte) : (s.writeByte a v).cfg = s.cfg := by
  rw [State.writeByte_eq]
@[simp] theorem State.writeWord_cfg (s : State) (a v : Word) : (s.writeWord a v).cfg = s.cfg := by
  simp [State.writeWord]
@[simp] theorem State.writeByte_mods (s : State) (a : Word) (v : Byte) : (s.writeByte a v).mods = s.mods := by
  rw [State.writeByte_eq]
@[simp] theorem State.writeWord_mods (s : State) (a v : Word) : (s.writeWord a v).mods = s.mods := by
  simp [State.writeWord]
@[simp] theorem State.writeByte_cur (s : State) (a : Word) (v : Byte) : (s.writeByte a v).cur = s.cur := by
  rw [State.writeByte_eq]
@[simp] theorem State.writeWord_cur (s : State) (a v : Word) : (s.writeWord a v).cur = s.cur := by
  simp [State.writeWord]
@[simp] theorem State.writeByte_rom (s : State) (a : Word) (v : Byte) : (s.writeByte a v).rom = s.rom := by
  rw [State.writeByte_eq]
@[simp] theorem State.writeWord_rom (s : State) (a v : Word) : (s.writeWord a v).rom = s.rom := by
  simp [State.writeWord]
@[simp] theorem State.writeByte_frameNo (s : State) (a : Word) (v : Byte) : (s.writeByte a v).frameNo = s.frameNo := by
  rw [State.writeByte_eq]
@[simp] theorem State.writeWord_frameNo (s : State) (a v : Word) : (s.writeWord a v).frameNo = s.frameNo := by
  simp [State.writeWord]
@[simp] theorem State.writeByte_nmiLine (s : State) (a : Word) (v : Byte) : (s.writeByte a v).nmiLine = s.nmiLine := by
  rw [State.writeByte_eq]
@[simp] theorem State.writeWord_nmiLine (s : State) (a v : Word) : (s.writeWord a v).nmiLine = s.nmiLine := by
  simp [State.writeWord]
@[simp] theorem State.writeByte_resetReq (s : State) (a : Word) (v : Byte) : (s.writeByte a v).resetReq = s.resetReq := by
  rw [State.writeByte_eq]
@[simp] theorem State.writeWord_resetReq (s : State) (a v : Word) : (s.writeWord a v).resetReq = s.resetReq := by
  simp [State.writeWord]
@[simp] theorem State.writeByte_wallInt (s : State) (a : Word) (v : Byte) : (s.writeByte a v).wallInt = s.wallInt := by
  rw [State.writeByte_eq]
@[simp] theorem State.writeWord_wallInt (s : State) (a v : Word) : (s.writeWord a v).wallInt = s.wallInt := by
  simp [State.writeWord]
@[simp] theorem State.writeByte_frameStartPending (s : State) (a : Word) (v : Byte) : (s.writeByte a v).frameStartPending = s.frameStartPending := by
  rw [State.writeByte_eq]
@[simp] theorem State.writeWord_frameStartPending (s : State) (a v : Word) : (s.writeWord a v).frameStartPending = s.frameStartPending := by
  simp [State.writeWord]
@[simp] theorem State.writeByte_resetSeen (s : State) (a : Word) (v : Byte) : (s.writeByte a v).resetSeen = s.resetSeen := by
  rw [State.writeByte_eq]
@[simp] theorem State.writeWord_resetSeen (s : State) (a v : Word) : (s.writeWord a v).resetSeen = s.resetSeen := by
  simp [State.writeWord]
@[simp] theorem State.writeByte_borderCur (s : State) (a : Word) (v : Byte) : (s.writeByte a v).borderCur = s.borderCur := by
  rw [State.writeByte_eq]
@[simp] theorem State.writeWord_borderCur (s : State) (a v : Word) : (s.writeWord a v).borderCur = s.borderCur := by
  simp [State.writeWord]
@[simp] theorem State.writeByte_borderLine (s : State) (a : Word) (v : Byte) : (s.writeByte a v).borderLine = s.borderLine := by
  rw [State.writeByte_eq]
@[simp] theorem State.writeWord_borderLine (s : State) (a v : Word) : (s.writeWord a v).borderLine = s.borderLine := by
  simp [State.writeWord]
@[simp] theorem State.writeByte_keysLive (s : State) (a : Word) (v : Byte) : (s.writeByte a v).keysLive = s.keysLive := by
  rw [State.writeByte_eq]
@[simp] theorem State.writeWord_keysLive (s : State) (a v : Word) : (s.writeWord a v).keysLive = s.keysLive := by
  simp [State.writeWord]
@[simp] theorem State.writeByte_keysVisible (s : State) (a : Word) (v : Byte) : (s.writeByte a v).keysVisible = s.keysVisible := by
  rw [State.writeByte_eq]
@[simp] theorem State.writeWord_keysVisible (s : State) (a v : Word) : (s.writeWord a v).keysVisible = s.keysVisible := by
  simp [State.writeWord]
@[simp] theorem State.writeByte_joyLive (s : State) (a : Word) (v : Byte) : (s.writeByte a v).joyLive = s.joyLive := by
  rw [State.writeByte_eq]
@[simp] theorem State.writeWord_joyLive (s : State) (a v : Word) : (s.writeWord a v).joyLive = s.joyLive := by
  simp [State.writeWord]
@[simp] theorem State.writeByte_joyVisible (s : State) (a : Word) (v : Byte) : (s.writeByte a v).joyVisible = s.joyVisible := by
  rw [State.writeByte_eq]
@[simp] theorem State.writeWord_joyVisible (s : State) (a v : Word) : (s.writeWord a v).joyVisible = s.joyVisible := by
  simp [State.writeWord]
@[simp] theorem State.writeByte_tapeIn (s : State) (a : Word) (v : Byte) : (s.writeByte a v).tapeIn = s.tapeIn := by
  rw [State.writeByte_eq]
@[simp] theorem State.writeWord_tapeIn (s : State) (a v : Word) : (s.writeWord a v).tapeIn = s.tapeIn := by
  simp [State.writeWord]
@[simp] theorem State.writeByte_hostInputs (s : State) (a : Word) (v : Byte) : (s.writeByte a v).hostInputs = s.hostInputs := by
  rw [State.writeByte_eq]
@[simp] theorem State.writeWord_hostInputs (s : State) (a v : Word) : (s.writeWord a v).hostInputs = s.hostInputs := by
  simp [State.writeWord]
@[simp] theorem State.writeByte_draws (s : State) (a : Word) (v : Byte) : (s.writeByte a v).draws = s.draws := by
  rw [State.writeByte_eq]
@[simp] theorem State.writeWord_draws (s : State) (a v : Word) : (s.writeWord a v).draws = s.draws := by
  simp [State.writeWord]

/-! ### The end of a step -/

@[simp] theorem Module.endStep_a (c : Module) (q : Byte) : (c.endStep q).a = c.a := rfl
@[simp] theorem Module.endStep_f (c : Module) (q : Byte) : (c.endStep q).f = c.f := rfl
@[simp] theorem Module.endStep_b (c : Module) (q : Byte) : (c.endStep q).b = c.b := rfl
@[simp] theorem Module.endStep_c (c : Module) (q : Byte) : (c.endStep q).c = c.c := rfl
@[simp] theorem Module.endStep_d (c : Module) (q : Byte) : (c.endStep q).d = c.d := rfl
@[simp] theorem Module.endStep_e (c : Module) (q : Byte) : (c.endStep q).e = c.e := rfl
@[simp] theorem Module.endStep_h (c : Module) (q : Byte) : (c.endStep q).h = c.h := rfl
@[simp] theorem Module.endStep_l (c : Module) (q : Byte) : (c.endStep q).l = c.l := rfl
@[simp] theorem Module.endStep_a' (c : Module) (q : Byte) : (c.endStep q).a' = c.a' := rfl
@[simp] theorem Module.endStep_f' (c : Module) (q : Byte) : (c.endStep q).f' = c.f' := rfl
@[simp] theorem Module.endStep_b' (c : Module) (q : Byte) : (c.endStep q).b' = c.b' := rfl
@[simp] theorem Module.endStep_c' (c : Module) (q : Byte) : (c.endStep q).c' = c.c' := rfl
@[simp] theorem Module.endStep_d' (c : Module) (q : Byte) : (c.endStep q).d' = c.d' := rfl
@[simp] theorem Module.endStep_e' (c : Module) (q : Byte) : (c.endStep q).e' = c.e' := rfl
@[simp] theorem Module.endStep_h' (c : Module) (q : Byte) : (c.endStep q).h' = c.h' := rfl
@[simp] theorem Module.endStep_l' (c : Module) (q : Byte) : (c.endStep q).l' = c.l' := rfl
@[simp] theorem Module.endStep_ix (c : Module) (q : Byte) : (c.endStep q).ix = c.ix := rfl
@[simp] theorem Module.endStep_iy (c : Module) (q : Byte) : (c.endStep q).iy = c.iy := rfl
@[simp] theorem Module.endStep_sp (c : Module) (q : Byte) : (c.endStep q).sp = c.sp := rfl
@[simp] theorem Module.endStep_pc (c : Module) (q : Byte) : (c.endStep q).pc = c.pc := rfl
@[simp] theorem Module.endStep_i (c : Module) (q : Byte) : (c.endStep q).i = c.i := rfl
@[simp] theorem Module.endStep_r (c : Module) (q : Byte) : (c.endStep q).r = c.r := rfl
@[simp] theorem Module.endStep_iff1 (c : Module) (q : Byte) : (c.endStep q).iff1 = c.iff1 := rfl
@[simp] theorem Module.endStep_iff2 (c : Module) (q : Byte) : (c.endStep q).iff2 = c.iff2 := rfl
@[simp] theorem Module.endStep_im (c : Module) (q : Byte) : (c.endStep q).im = c.im := rfl
@[simp] theorem Module.endStep_halted (c : Module) (q : Byte) : (c.endStep q).halted = c.halted := rfl
@[simp] theorem Module.endStep_memptr (c : Module) (q : Byte) : (c.endStep q).memptr = c.memptr := rfl
@[simp] theorem Module.endStep_q (c : Module) (q : Byte) : (c.endStep q).q = q := rfl
@[simp] theorem Module.endStep_eiDelay (c : Module) (q : Byte) : (c.endStep q).eiDelay = false := rfl
@[simp] theorem Module.endStep_prefixBlock (c : Module) (q : Byte) : (c.endStep q).prefixBlock = false := rfl
@[simp] theorem Module.endStep_nmiPending (c : Module) (q : Byte) : (c.endStep q).nmiPending = c.nmiPending := rfl
@[simp] theorem Module.endStep_nmiPrev (c : Module) (q : Byte) : (c.endStep q).nmiPrev = c.nmiPrev := rfl
@[simp] theorem Module.endStep_ldair (c : Module) (q : Byte) : (c.endStep q).ldair = false := rfl
@[simp] theorem Module.endStep_retiSeen (c : Module) (q : Byte) : (c.endStep q).retiSeen = c.retiSeen := rfl
@[simp] theorem Module.endStep_port7FFD (c : Module) (q : Byte) : (c.endStep q).port7FFD = c.port7FFD := rfl
@[simp] theorem Module.endStep_trdos (c : Module) (q : Byte) : (c.endStep q).trdos = c.trdos := rfl
@[simp] theorem Module.endStep_t (c : Module) (q : Byte) : (c.endStep q).t = c.t := rfl
@[simp] theorem Module.spend_a (c : Module) (n : Nat) : (c.spend n).a = c.a := rfl
@[simp] theorem Module.spend_f (c : Module) (n : Nat) : (c.spend n).f = c.f := rfl
@[simp] theorem Module.spend_b (c : Module) (n : Nat) : (c.spend n).b = c.b := rfl
@[simp] theorem Module.spend_c (c : Module) (n : Nat) : (c.spend n).c = c.c := rfl
@[simp] theorem Module.spend_d (c : Module) (n : Nat) : (c.spend n).d = c.d := rfl
@[simp] theorem Module.spend_e (c : Module) (n : Nat) : (c.spend n).e = c.e := rfl
@[simp] theorem Module.spend_h (c : Module) (n : Nat) : (c.spend n).h = c.h := rfl
@[simp] theorem Module.spend_l (c : Module) (n : Nat) : (c.spend n).l = c.l := rfl
@[simp] theorem Module.spend_a' (c : Module) (n : Nat) : (c.spend n).a' = c.a' := rfl
@[simp] theorem Module.spend_f' (c : Module) (n : Nat) : (c.spend n).f' = c.f' := rfl
@[simp] theorem Module.spend_b' (c : Module) (n : Nat) : (c.spend n).b' = c.b' := rfl
@[simp] theorem Module.spend_c' (c : Module) (n : Nat) : (c.spend n).c' = c.c' := rfl
@[simp] theorem Module.spend_d' (c : Module) (n : Nat) : (c.spend n).d' = c.d' := rfl
@[simp] theorem Module.spend_e' (c : Module) (n : Nat) : (c.spend n).e' = c.e' := rfl
@[simp] theorem Module.spend_h' (c : Module) (n : Nat) : (c.spend n).h' = c.h' := rfl
@[simp] theorem Module.spend_l' (c : Module) (n : Nat) : (c.spend n).l' = c.l' := rfl
@[simp] theorem Module.spend_ix (c : Module) (n : Nat) : (c.spend n).ix = c.ix := rfl
@[simp] theorem Module.spend_iy (c : Module) (n : Nat) : (c.spend n).iy = c.iy := rfl
@[simp] theorem Module.spend_sp (c : Module) (n : Nat) : (c.spend n).sp = c.sp := rfl
@[simp] theorem Module.spend_pc (c : Module) (n : Nat) : (c.spend n).pc = c.pc := rfl
@[simp] theorem Module.spend_i (c : Module) (n : Nat) : (c.spend n).i = c.i := rfl
@[simp] theorem Module.spend_r (c : Module) (n : Nat) : (c.spend n).r = c.r := rfl
@[simp] theorem Module.spend_iff1 (c : Module) (n : Nat) : (c.spend n).iff1 = c.iff1 := rfl
@[simp] theorem Module.spend_iff2 (c : Module) (n : Nat) : (c.spend n).iff2 = c.iff2 := rfl
@[simp] theorem Module.spend_im (c : Module) (n : Nat) : (c.spend n).im = c.im := rfl
@[simp] theorem Module.spend_halted (c : Module) (n : Nat) : (c.spend n).halted = c.halted := rfl
@[simp] theorem Module.spend_memptr (c : Module) (n : Nat) : (c.spend n).memptr = c.memptr := rfl
@[simp] theorem Module.spend_q (c : Module) (n : Nat) : (c.spend n).q = c.q := rfl
@[simp] theorem Module.spend_eiDelay (c : Module) (n : Nat) : (c.spend n).eiDelay = c.eiDelay := rfl
@[simp] theorem Module.spend_prefixBlock (c : Module) (n : Nat) : (c.spend n).prefixBlock = c.prefixBlock := rfl
@[simp] theorem Module.spend_nmiPending (c : Module) (n : Nat) : (c.spend n).nmiPending = c.nmiPending := rfl
@[simp] theorem Module.spend_nmiPrev (c : Module) (n : Nat) : (c.spend n).nmiPrev = c.nmiPrev := rfl
@[simp] theorem Module.spend_ldair (c : Module) (n : Nat) : (c.spend n).ldair = c.ldair := rfl
@[simp] theorem Module.spend_retiSeen (c : Module) (n : Nat) : (c.spend n).retiSeen = c.retiSeen := rfl
@[simp] theorem Module.spend_port7FFD (c : Module) (n : Nat) : (c.spend n).port7FFD = c.port7FFD := rfl
@[simp] theorem Module.spend_trdos (c : Module) (n : Nat) : (c.spend n).trdos = c.trdos := rfl
@[simp] theorem Module.spend_t (c : Module) (n : Nat) : (c.spend n).t = c.t + n := rfl

/-! ### Pairs written -/

@[simp] theorem Module.setBc_a (c : Module) (v : Word) : (c.setBc v).a = c.a := rfl
@[simp] theorem Module.setBc_f (c : Module) (v : Word) : (c.setBc v).f = c.f := rfl
@[simp] theorem Module.setBc_b (c : Module) (v : Word) : (c.setBc v).b = hiByte v := rfl
@[simp] theorem Module.setBc_c (c : Module) (v : Word) : (c.setBc v).c = loByte v := rfl
@[simp] theorem Module.setBc_d (c : Module) (v : Word) : (c.setBc v).d = c.d := rfl
@[simp] theorem Module.setBc_e (c : Module) (v : Word) : (c.setBc v).e = c.e := rfl
@[simp] theorem Module.setBc_h (c : Module) (v : Word) : (c.setBc v).h = c.h := rfl
@[simp] theorem Module.setBc_l (c : Module) (v : Word) : (c.setBc v).l = c.l := rfl
@[simp] theorem Module.setBc_a' (c : Module) (v : Word) : (c.setBc v).a' = c.a' := rfl
@[simp] theorem Module.setBc_f' (c : Module) (v : Word) : (c.setBc v).f' = c.f' := rfl
@[simp] theorem Module.setBc_b' (c : Module) (v : Word) : (c.setBc v).b' = c.b' := rfl
@[simp] theorem Module.setBc_c' (c : Module) (v : Word) : (c.setBc v).c' = c.c' := rfl
@[simp] theorem Module.setBc_d' (c : Module) (v : Word) : (c.setBc v).d' = c.d' := rfl
@[simp] theorem Module.setBc_e' (c : Module) (v : Word) : (c.setBc v).e' = c.e' := rfl
@[simp] theorem Module.setBc_h' (c : Module) (v : Word) : (c.setBc v).h' = c.h' := rfl
@[simp] theorem Module.setBc_l' (c : Module) (v : Word) : (c.setBc v).l' = c.l' := rfl
@[simp] theorem Module.setBc_ix (c : Module) (v : Word) : (c.setBc v).ix = c.ix := rfl
@[simp] theorem Module.setBc_iy (c : Module) (v : Word) : (c.setBc v).iy = c.iy := rfl
@[simp] theorem Module.setBc_sp (c : Module) (v : Word) : (c.setBc v).sp = c.sp := rfl
@[simp] theorem Module.setBc_pc (c : Module) (v : Word) : (c.setBc v).pc = c.pc := rfl
@[simp] theorem Module.setBc_i (c : Module) (v : Word) : (c.setBc v).i = c.i := rfl
@[simp] theorem Module.setBc_r (c : Module) (v : Word) : (c.setBc v).r = c.r := rfl
@[simp] theorem Module.setBc_iff1 (c : Module) (v : Word) : (c.setBc v).iff1 = c.iff1 := rfl
@[simp] theorem Module.setBc_iff2 (c : Module) (v : Word) : (c.setBc v).iff2 = c.iff2 := rfl
@[simp] theorem Module.setBc_im (c : Module) (v : Word) : (c.setBc v).im = c.im := rfl
@[simp] theorem Module.setBc_halted (c : Module) (v : Word) : (c.setBc v).halted = c.halted := rfl
@[simp] theorem Module.setBc_memptr (c : Module) (v : Word) : (c.setBc v).memptr = c.memptr := rfl
@[simp] theorem Module.setBc_q (c : Module) (v : Word) : (c.setBc v).q = c.q := rfl
@[simp] theorem Module.setBc_eiDelay (c : Module) (v : Word) : (c.setBc v).eiDelay = c.eiDelay := rfl
@[simp] theorem Module.setBc_prefixBlock (c : Module) (v : Word) : (c.setBc v).prefixBlock = c.prefixBlock := rfl
@[simp] theorem Module.setBc_nmiPending (c : Module) (v : Word) : (c.setBc v).nmiPending = c.nmiPending := rfl
@[simp] theorem Module.setBc_nmiPrev (c : Module) (v : Word) : (c.setBc v).nmiPrev = c.nmiPrev := rfl
@[simp] theorem Module.setBc_ldair (c : Module) (v : Word) : (c.setBc v).ldair = c.ldair := rfl
@[simp] theorem Module.setBc_retiSeen (c : Module) (v : Word) : (c.setBc v).retiSeen = c.retiSeen := rfl
@[simp] theorem Module.setBc_port7FFD (c : Module) (v : Word) : (c.setBc v).port7FFD = c.port7FFD := rfl
@[simp] theorem Module.setBc_trdos (c : Module) (v : Word) : (c.setBc v).trdos = c.trdos := rfl
@[simp] theorem Module.setBc_t (c : Module) (v : Word) : (c.setBc v).t = c.t := rfl
@[simp] theorem Module.setDe_a (c : Module) (v : Word) : (c.setDe v).a = c.a := rfl
@[simp] theorem Module.setDe_f (c : Module) (v : Word) : (c.setDe v).f = c.f := rfl
@[simp] theorem Module.setDe_b (c : Module) (v : Word) : (c.setDe v).b = c.b := rfl
@[simp] theorem Module.setDe_c (c : Module) (v : Word) : (c.setDe v).c = c.c := rfl
@[simp] theorem Module.setDe_d (c : Module) (v : Word) : (c.setDe v).d = hiByte v := rfl
@[simp] theorem Module.setDe_e (c : Module) (v : Word) : (c.setDe v).e = loByte v := rfl
@[simp] theorem Module.setDe_h (c : Module) (v : Word) : (c.setDe v).h = c.h := rfl
@[simp] theorem Module.setDe_l (c : Module) (v : Word) : (c.setDe v).l = c.l := rfl
@[simp] theorem Module.setDe_a' (c : Module) (v : Word) : (c.setDe v).a' = c.a' := rfl
@[simp] theorem Module.setDe_f' (c : Module) (v : Word) : (c.setDe v).f' = c.f' := rfl
@[simp] theorem Module.setDe_b' (c : Module) (v : Word) : (c.setDe v).b' = c.b' := rfl
@[simp] theorem Module.setDe_c' (c : Module) (v : Word) : (c.setDe v).c' = c.c' := rfl
@[simp] theorem Module.setDe_d' (c : Module) (v : Word) : (c.setDe v).d' = c.d' := rfl
@[simp] theorem Module.setDe_e' (c : Module) (v : Word) : (c.setDe v).e' = c.e' := rfl
@[simp] theorem Module.setDe_h' (c : Module) (v : Word) : (c.setDe v).h' = c.h' := rfl
@[simp] theorem Module.setDe_l' (c : Module) (v : Word) : (c.setDe v).l' = c.l' := rfl
@[simp] theorem Module.setDe_ix (c : Module) (v : Word) : (c.setDe v).ix = c.ix := rfl
@[simp] theorem Module.setDe_iy (c : Module) (v : Word) : (c.setDe v).iy = c.iy := rfl
@[simp] theorem Module.setDe_sp (c : Module) (v : Word) : (c.setDe v).sp = c.sp := rfl
@[simp] theorem Module.setDe_pc (c : Module) (v : Word) : (c.setDe v).pc = c.pc := rfl
@[simp] theorem Module.setDe_i (c : Module) (v : Word) : (c.setDe v).i = c.i := rfl
@[simp] theorem Module.setDe_r (c : Module) (v : Word) : (c.setDe v).r = c.r := rfl
@[simp] theorem Module.setDe_iff1 (c : Module) (v : Word) : (c.setDe v).iff1 = c.iff1 := rfl
@[simp] theorem Module.setDe_iff2 (c : Module) (v : Word) : (c.setDe v).iff2 = c.iff2 := rfl
@[simp] theorem Module.setDe_im (c : Module) (v : Word) : (c.setDe v).im = c.im := rfl
@[simp] theorem Module.setDe_halted (c : Module) (v : Word) : (c.setDe v).halted = c.halted := rfl
@[simp] theorem Module.setDe_memptr (c : Module) (v : Word) : (c.setDe v).memptr = c.memptr := rfl
@[simp] theorem Module.setDe_q (c : Module) (v : Word) : (c.setDe v).q = c.q := rfl
@[simp] theorem Module.setDe_eiDelay (c : Module) (v : Word) : (c.setDe v).eiDelay = c.eiDelay := rfl
@[simp] theorem Module.setDe_prefixBlock (c : Module) (v : Word) : (c.setDe v).prefixBlock = c.prefixBlock := rfl
@[simp] theorem Module.setDe_nmiPending (c : Module) (v : Word) : (c.setDe v).nmiPending = c.nmiPending := rfl
@[simp] theorem Module.setDe_nmiPrev (c : Module) (v : Word) : (c.setDe v).nmiPrev = c.nmiPrev := rfl
@[simp] theorem Module.setDe_ldair (c : Module) (v : Word) : (c.setDe v).ldair = c.ldair := rfl
@[simp] theorem Module.setDe_retiSeen (c : Module) (v : Word) : (c.setDe v).retiSeen = c.retiSeen := rfl
@[simp] theorem Module.setDe_port7FFD (c : Module) (v : Word) : (c.setDe v).port7FFD = c.port7FFD := rfl
@[simp] theorem Module.setDe_trdos (c : Module) (v : Word) : (c.setDe v).trdos = c.trdos := rfl
@[simp] theorem Module.setDe_t (c : Module) (v : Word) : (c.setDe v).t = c.t := rfl
@[simp] theorem Module.setHl_a (c : Module) (v : Word) : (c.setHl v).a = c.a := rfl
@[simp] theorem Module.setHl_f (c : Module) (v : Word) : (c.setHl v).f = c.f := rfl
@[simp] theorem Module.setHl_b (c : Module) (v : Word) : (c.setHl v).b = c.b := rfl
@[simp] theorem Module.setHl_c (c : Module) (v : Word) : (c.setHl v).c = c.c := rfl
@[simp] theorem Module.setHl_d (c : Module) (v : Word) : (c.setHl v).d = c.d := rfl
@[simp] theorem Module.setHl_e (c : Module) (v : Word) : (c.setHl v).e = c.e := rfl
@[simp] theorem Module.setHl_h (c : Module) (v : Word) : (c.setHl v).h = hiByte v := rfl
@[simp] theorem Module.setHl_l (c : Module) (v : Word) : (c.setHl v).l = loByte v := rfl
@[simp] theorem Module.setHl_a' (c : Module) (v : Word) : (c.setHl v).a' = c.a' := rfl
@[simp] theorem Module.setHl_f' (c : Module) (v : Word) : (c.setHl v).f' = c.f' := rfl
@[simp] theorem Module.setHl_b' (c : Module) (v : Word) : (c.setHl v).b' = c.b' := rfl
@[simp] theorem Module.setHl_c' (c : Module) (v : Word) : (c.setHl v).c' = c.c' := rfl
@[simp] theorem Module.setHl_d' (c : Module) (v : Word) : (c.setHl v).d' = c.d' := rfl
@[simp] theorem Module.setHl_e' (c : Module) (v : Word) : (c.setHl v).e' = c.e' := rfl
@[simp] theorem Module.setHl_h' (c : Module) (v : Word) : (c.setHl v).h' = c.h' := rfl
@[simp] theorem Module.setHl_l' (c : Module) (v : Word) : (c.setHl v).l' = c.l' := rfl
@[simp] theorem Module.setHl_ix (c : Module) (v : Word) : (c.setHl v).ix = c.ix := rfl
@[simp] theorem Module.setHl_iy (c : Module) (v : Word) : (c.setHl v).iy = c.iy := rfl
@[simp] theorem Module.setHl_sp (c : Module) (v : Word) : (c.setHl v).sp = c.sp := rfl
@[simp] theorem Module.setHl_pc (c : Module) (v : Word) : (c.setHl v).pc = c.pc := rfl
@[simp] theorem Module.setHl_i (c : Module) (v : Word) : (c.setHl v).i = c.i := rfl
@[simp] theorem Module.setHl_r (c : Module) (v : Word) : (c.setHl v).r = c.r := rfl
@[simp] theorem Module.setHl_iff1 (c : Module) (v : Word) : (c.setHl v).iff1 = c.iff1 := rfl
@[simp] theorem Module.setHl_iff2 (c : Module) (v : Word) : (c.setHl v).iff2 = c.iff2 := rfl
@[simp] theorem Module.setHl_im (c : Module) (v : Word) : (c.setHl v).im = c.im := rfl
@[simp] theorem Module.setHl_halted (c : Module) (v : Word) : (c.setHl v).halted = c.halted := rfl
@[simp] theorem Module.setHl_memptr (c : Module) (v : Word) : (c.setHl v).memptr = c.memptr := rfl
@[simp] theorem Module.setHl_q (c : Module) (v : Word) : (c.setHl v).q = c.q := rfl
@[simp] theorem Module.setHl_eiDelay (c : Module) (v : Word) : (c.setHl v).eiDelay = c.eiDelay := rfl
@[simp] theorem Module.setHl_prefixBlock (c : Module) (v : Word) : (c.setHl v).prefixBlock = c.prefixBlock := rfl
@[simp] theorem Module.setHl_nmiPending (c : Module) (v : Word) : (c.setHl v).nmiPending = c.nmiPending := rfl
@[simp] theorem Module.setHl_nmiPrev (c : Module) (v : Word) : (c.setHl v).nmiPrev = c.nmiPrev := rfl
@[simp] theorem Module.setHl_ldair (c : Module) (v : Word) : (c.setHl v).ldair = c.ldair := rfl
@[simp] theorem Module.setHl_retiSeen (c : Module) (v : Word) : (c.setHl v).retiSeen = c.retiSeen := rfl
@[simp] theorem Module.setHl_port7FFD (c : Module) (v : Word) : (c.setHl v).port7FFD = c.port7FFD := rfl
@[simp] theorem Module.setHl_trdos (c : Module) (v : Word) : (c.setHl v).trdos = c.trdos := rfl
@[simp] theorem Module.setHl_t (c : Module) (v : Word) : (c.setHl v).t = c.t := rfl
@[simp] theorem Module.setAf_a (c : Module) (v : Word) : (c.setAf v).a = hiByte v := rfl
@[simp] theorem Module.setAf_f (c : Module) (v : Word) : (c.setAf v).f = loByte v := rfl
@[simp] theorem Module.setAf_b (c : Module) (v : Word) : (c.setAf v).b = c.b := rfl
@[simp] theorem Module.setAf_c (c : Module) (v : Word) : (c.setAf v).c = c.c := rfl
@[simp] theorem Module.setAf_d (c : Module) (v : Word) : (c.setAf v).d = c.d := rfl
@[simp] theorem Module.setAf_e (c : Module) (v : Word) : (c.setAf v).e = c.e := rfl
@[simp] theorem Module.setAf_h (c : Module) (v : Word) : (c.setAf v).h = c.h := rfl
@[simp] theorem Module.setAf_l (c : Module) (v : Word) : (c.setAf v).l = c.l := rfl
@[simp] theorem Module.setAf_a' (c : Module) (v : Word) : (c.setAf v).a' = c.a' := rfl
@[simp] theorem Module.setAf_f' (c : Module) (v : Word) : (c.setAf v).f' = c.f' := rfl
@[simp] theorem Module.setAf_b' (c : Module) (v : Word) : (c.setAf v).b' = c.b' := rfl
@[simp] theorem Module.setAf_c' (c : Module) (v : Word) : (c.setAf v).c' = c.c' := rfl
@[simp] theorem Module.setAf_d' (c : Module) (v : Word) : (c.setAf v).d' = c.d' := rfl
@[simp] theorem Module.setAf_e' (c : Module) (v : Word) : (c.setAf v).e' = c.e' := rfl
@[simp] theorem Module.setAf_h' (c : Module) (v : Word) : (c.setAf v).h' = c.h' := rfl
@[simp] theorem Module.setAf_l' (c : Module) (v : Word) : (c.setAf v).l' = c.l' := rfl
@[simp] theorem Module.setAf_ix (c : Module) (v : Word) : (c.setAf v).ix = c.ix := rfl
@[simp] theorem Module.setAf_iy (c : Module) (v : Word) : (c.setAf v).iy = c.iy := rfl
@[simp] theorem Module.setAf_sp (c : Module) (v : Word) : (c.setAf v).sp = c.sp := rfl
@[simp] theorem Module.setAf_pc (c : Module) (v : Word) : (c.setAf v).pc = c.pc := rfl
@[simp] theorem Module.setAf_i (c : Module) (v : Word) : (c.setAf v).i = c.i := rfl
@[simp] theorem Module.setAf_r (c : Module) (v : Word) : (c.setAf v).r = c.r := rfl
@[simp] theorem Module.setAf_iff1 (c : Module) (v : Word) : (c.setAf v).iff1 = c.iff1 := rfl
@[simp] theorem Module.setAf_iff2 (c : Module) (v : Word) : (c.setAf v).iff2 = c.iff2 := rfl
@[simp] theorem Module.setAf_im (c : Module) (v : Word) : (c.setAf v).im = c.im := rfl
@[simp] theorem Module.setAf_halted (c : Module) (v : Word) : (c.setAf v).halted = c.halted := rfl
@[simp] theorem Module.setAf_memptr (c : Module) (v : Word) : (c.setAf v).memptr = c.memptr := rfl
@[simp] theorem Module.setAf_q (c : Module) (v : Word) : (c.setAf v).q = c.q := rfl
@[simp] theorem Module.setAf_eiDelay (c : Module) (v : Word) : (c.setAf v).eiDelay = c.eiDelay := rfl
@[simp] theorem Module.setAf_prefixBlock (c : Module) (v : Word) : (c.setAf v).prefixBlock = c.prefixBlock := rfl
@[simp] theorem Module.setAf_nmiPending (c : Module) (v : Word) : (c.setAf v).nmiPending = c.nmiPending := rfl
@[simp] theorem Module.setAf_nmiPrev (c : Module) (v : Word) : (c.setAf v).nmiPrev = c.nmiPrev := rfl
@[simp] theorem Module.setAf_ldair (c : Module) (v : Word) : (c.setAf v).ldair = c.ldair := rfl
@[simp] theorem Module.setAf_retiSeen (c : Module) (v : Word) : (c.setAf v).retiSeen = c.retiSeen := rfl
@[simp] theorem Module.setAf_port7FFD (c : Module) (v : Word) : (c.setAf v).port7FFD = c.port7FFD := rfl
@[simp] theorem Module.setAf_trdos (c : Module) (v : Word) : (c.setAf v).trdos = c.trdos := rfl
@[simp] theorem Module.setAf_t (c : Module) (v : Word) : (c.setAf v).t = c.t := rfl

/-! ### Operands written: what each leaves alone -/

@[simp] theorem Module.setReg8_f (c : Module) (k : Reg8) (v : Byte) : (c.setReg8 k v).f = c.f := by cases k <;> rfl
@[simp] theorem Module.setReg8_a' (c : Module) (k : Reg8) (v : Byte) : (c.setReg8 k v).a' = c.a' := by cases k <;> rfl
@[simp] theorem Module.setReg8_f' (c : Module) (k : Reg8) (v : Byte) : (c.setReg8 k v).f' = c.f' := by cases k <;> rfl
@[simp] theorem Module.setReg8_b' (c : Module) (k : Reg8) (v : Byte) : (c.setReg8 k v).b' = c.b' := by cases k <;> rfl
@[simp] theorem Module.setReg8_c' (c : Module) (k : Reg8) (v : Byte) : (c.setReg8 k v).c' = c.c' := by cases k <;> rfl
@[simp] theorem Module.setReg8_d' (c : Module) (k : Reg8) (v : Byte) : (c.setReg8 k v).d' = c.d' := by cases k <;> rfl
@[simp] theorem Module.setReg8_e' (c : Module) (k : Reg8) (v : Byte) : (c.setReg8 k v).e' = c.e' := by cases k <;> rfl
@[simp] theorem Module.setReg8_h' (c : Module) (k : Reg8) (v : Byte) : (c.setReg8 k v).h' = c.h' := by cases k <;> rfl
@[simp] theorem Module.setReg8_l' (c : Module) (k : Reg8) (v : Byte) : (c.setReg8 k v).l' = c.l' := by cases k <;> rfl
@[simp] theorem Module.setReg8_ix (c : Module) (k : Reg8) (v : Byte) : (c.setReg8 k v).ix = c.ix := by cases k <;> rfl
@[simp] theorem Module.setReg8_iy (c : Module) (k : Reg8) (v : Byte) : (c.setReg8 k v).iy = c.iy := by cases k <;> rfl
@[simp] theorem Module.setReg8_sp (c : Module) (k : Reg8) (v : Byte) : (c.setReg8 k v).sp = c.sp := by cases k <;> rfl
@[simp] theorem Module.setReg8_pc (c : Module) (k : Reg8) (v : Byte) : (c.setReg8 k v).pc = c.pc := by cases k <;> rfl
@[simp] theorem Module.setReg8_i (c : Module) (k : Reg8) (v : Byte) : (c.setReg8 k v).i = c.i := by cases k <;> rfl
@[simp] theorem Module.setReg8_r (c : Module) (k : Reg8) (v : Byte) : (c.setReg8 k v).r = c.r := by cases k <;> rfl
@[simp] theorem Module.setReg8_iff1 (c : Module) (k : Reg8) (v : Byte) : (c.setReg8 k v).iff1 = c.iff1 := by cases k <;> rfl
@[simp] theorem Module.setReg8_iff2 (c : Module) (k : Reg8) (v : Byte) : (c.setReg8 k v).iff2 = c.iff2 := by cases k <;> rfl
@[simp] theorem Module.setReg8_im (c : Module) (k : Reg8) (v : Byte) : (c.setReg8 k v).im = c.im := by cases k <;> rfl
@[simp] theorem Module.setReg8_halted (c : Module) (k : Reg8) (v : Byte) : (c.setReg8 k v).halted = c.halted := by cases k <;> rfl
@[simp] theorem Module.setReg8_memptr (c : Module) (k : Reg8) (v : Byte) : (c.setReg8 k v).memptr = c.memptr := by cases k <;> rfl
@[simp] theorem Module.setReg8_q (c : Module) (k : Reg8) (v : Byte) : (c.setReg8 k v).q = c.q := by cases k <;> rfl
@[simp] theorem Module.setReg8_eiDelay (c : Module) (k : Reg8) (v : Byte) : (c.setReg8 k v).eiDelay = c.eiDelay := by cases k <;> rfl
@[simp] theorem Module.setReg8_prefixBlock (c : Module) (k : Reg8) (v : Byte) : (c.setReg8 k v).prefixBlock = c.prefixBlock := by cases k <;> rfl
@[simp] theorem Module.setReg8_nmiPending (c : Module) (k : Reg8) (v : Byte) : (c.setReg8 k v).nmiPending = c.nmiPending := by cases k <;> rfl
@[simp] theorem Module.setReg8_nmiPrev (c : Module) (k : Reg8) (v : Byte) : (c.setReg8 k v).nmiPrev = c.nmiPrev := by cases k <;> rfl
@[simp] theorem Module.setReg8_ldair (c : Module) (k : Reg8) (v : Byte) : (c.setReg8 k v).ldair = c.ldair := by cases k <;> rfl
@[simp] theorem Module.setReg8_retiSeen (c : Module) (k : Reg8) (v : Byte) : (c.setReg8 k v).retiSeen = c.retiSeen := by cases k <;> rfl
@[simp] theorem Module.setReg8_port7FFD (c : Module) (k : Reg8) (v : Byte) : (c.setReg8 k v).port7FFD = c.port7FFD := by cases k <;> rfl
@[simp] theorem Module.setReg8_trdos (c : Module) (k : Reg8) (v : Byte) : (c.setReg8 k v).trdos = c.trdos := by cases k <;> rfl
@[simp] theorem Module.setReg8_t (c : Module) (k : Reg8) (v : Byte) : (c.setReg8 k v).t = c.t := by cases k <;> rfl
@[simp] theorem Module.setRp_a (c : Module) (k : Rp) (v : Word) : (c.setRp k v).a = c.a := by cases k <;> rfl
@[simp] theorem Module.setRp_f (c : Module) (k : Rp) (v : Word) : (c.setRp k v).f = c.f := by cases k <;> rfl
@[simp] theorem Module.setRp_a' (c : Module) (k : Rp) (v : Word) : (c.setRp k v).a' = c.a' := by cases k <;> rfl
@[simp] theorem Module.setRp_f' (c : Module) (k : Rp) (v : Word) : (c.setRp k v).f' = c.f' := by cases k <;> rfl
@[simp] theorem Module.setRp_b' (c : Module) (k : Rp) (v : Word) : (c.setRp k v).b' = c.b' := by cases k <;> rfl
@[simp] theorem Module.setRp_c' (c : Module) (k : Rp) (v : Word) : (c.setRp k v).c' = c.c' := by cases k <;> rfl
@[simp] theorem Module.setRp_d' (c : Module) (k : Rp) (v : Word) : (c.setRp k v).d' = c.d' := by cases k <;> rfl
@[simp] theorem Module.setRp_e' (c : Module) (k : Rp) (v : Word) : (c.setRp k v).e' = c.e' := by cases k <;> rfl
@[simp] theorem Module.setRp_h' (c : Module) (k : Rp) (v : Word) : (c.setRp k v).h' = c.h' := by cases k <;> rfl
@[simp] theorem Module.setRp_l' (c : Module) (k : Rp) (v : Word) : (c.setRp k v).l' = c.l' := by cases k <;> rfl
@[simp] theorem Module.setRp_ix (c : Module) (k : Rp) (v : Word) : (c.setRp k v).ix = c.ix := by cases k <;> rfl
@[simp] theorem Module.setRp_iy (c : Module) (k : Rp) (v : Word) : (c.setRp k v).iy = c.iy := by cases k <;> rfl
@[simp] theorem Module.setRp_pc (c : Module) (k : Rp) (v : Word) : (c.setRp k v).pc = c.pc := by cases k <;> rfl
@[simp] theorem Module.setRp_i (c : Module) (k : Rp) (v : Word) : (c.setRp k v).i = c.i := by cases k <;> rfl
@[simp] theorem Module.setRp_r (c : Module) (k : Rp) (v : Word) : (c.setRp k v).r = c.r := by cases k <;> rfl
@[simp] theorem Module.setRp_iff1 (c : Module) (k : Rp) (v : Word) : (c.setRp k v).iff1 = c.iff1 := by cases k <;> rfl
@[simp] theorem Module.setRp_iff2 (c : Module) (k : Rp) (v : Word) : (c.setRp k v).iff2 = c.iff2 := by cases k <;> rfl
@[simp] theorem Module.setRp_im (c : Module) (k : Rp) (v : Word) : (c.setRp k v).im = c.im := by cases k <;> rfl
@[simp] theorem Module.setRp_halted (c : Module) (k : Rp) (v : Word) : (c.setRp k v).halted = c.halted := by cases k <;> rfl
@[simp] theorem Module.setRp_memptr (c : Module) (k : Rp) (v : Word) : (c.setRp k v).memptr = c.memptr := by cases k <;> rfl
@[simp] theorem Module.setRp_q (c : Module) (k : Rp) (v : Word) : (c.setRp k v).q = c.q := by cases k <;> rfl
@[simp] theorem Module.setRp_eiDelay (c : Module) (k : Rp) (v : Word) : (c.setRp k v).eiDelay = c.eiDelay := by cases k <;> rfl
@[simp] theorem Module.setRp_prefixBlock (c : Module) (k : Rp) (v : Word) : (c.setRp k v).prefixBlock = c.prefixBlock := by cases k <;> rfl
@[simp] theorem Module.setRp_nmiPending (c : Module) (k : Rp) (v : Word) : (c.setRp k v).nmiPending = c.nmiPending := by cases k <;> rfl
@[simp] theorem Module.setRp_nmiPrev (c : Module) (k : Rp) (v : Word) : (c.setRp k v).nmiPrev = c.nmiPrev := by cases k <;> rfl
@[simp] theorem Module.setRp_ldair (c : Module) (k : Rp) (v : Word) : (c.setRp k v).ldair = c.ldair := by cases k <;> rfl
@[simp] theorem Module.setRp_retiSeen (c : Module) (k : Rp) (v : Word) : (c.setRp k v).retiSeen = c.retiSeen := by cases k <;> rfl
@[simp] theorem Module.setRp_port7FFD (c : Module) (k : Rp) (v : Word) : (c.setRp k v).port7FFD = c.port7FFD := by cases k <;> rfl
@[simp] theorem Module.setRp_trdos (c : Module) (k : Rp) (v : Word) : (c.setRp k v).trdos = c.trdos := by cases k <;> rfl
@[simp] theorem Module.setRp_t (c : Module) (k : Rp) (v : Word) : (c.setRp k v).t = c.t := by cases k <;> rfl
@[simp] theorem Module.setRp2_a' (c : Module) (k : Rp2) (v : Word) : (c.setRp2 k v).a' = c.a' := by cases k <;> rfl
@[simp] theorem Module.setRp2_f' (c : Module) (k : Rp2) (v : Word) : (c.setRp2 k v).f' = c.f' := by cases k <;> rfl
@[simp] theorem Module.setRp2_b' (c : Module) (k : Rp2) (v : Word) : (c.setRp2 k v).b' = c.b' := by cases k <;> rfl
@[simp] theorem Module.setRp2_c' (c : Module) (k : Rp2) (v : Word) : (c.setRp2 k v).c' = c.c' := by cases k <;> rfl
@[simp] theorem Module.setRp2_d' (c : Module) (k : Rp2) (v : Word) : (c.setRp2 k v).d' = c.d' := by cases k <;> rfl
@[simp] theorem Module.setRp2_e' (c : Module) (k : Rp2) (v : Word) : (c.setRp2 k v).e' = c.e' := by cases k <;> rfl
@[simp] theorem Module.setRp2_h' (c : Module) (k : Rp2) (v : Word) : (c.setRp2 k v).h' = c.h' := by cases k <;> rfl
@[simp] theorem Module.setRp2_l' (c : Module) (k : Rp2) (v : Word) : (c.setRp2 k v).l' = c.l' := by cases k <;> rfl
@[simp] theorem Module.setRp2_ix (c : Module) (k : Rp2) (v : Word) : (c.setRp2 k v).ix = c.ix := by cases k <;> rfl
@[simp] theorem Module.setRp2_iy (c : Module) (k : Rp2) (v : Word) : (c.setRp2 k v).iy = c.iy := by cases k <;> rfl
@[simp] theorem Module.setRp2_sp (c : Module) (k : Rp2) (v : Word) : (c.setRp2 k v).sp = c.sp := by cases k <;> rfl
@[simp] theorem Module.setRp2_pc (c : Module) (k : Rp2) (v : Word) : (c.setRp2 k v).pc = c.pc := by cases k <;> rfl
@[simp] theorem Module.setRp2_i (c : Module) (k : Rp2) (v : Word) : (c.setRp2 k v).i = c.i := by cases k <;> rfl
@[simp] theorem Module.setRp2_r (c : Module) (k : Rp2) (v : Word) : (c.setRp2 k v).r = c.r := by cases k <;> rfl
@[simp] theorem Module.setRp2_iff1 (c : Module) (k : Rp2) (v : Word) : (c.setRp2 k v).iff1 = c.iff1 := by cases k <;> rfl
@[simp] theorem Module.setRp2_iff2 (c : Module) (k : Rp2) (v : Word) : (c.setRp2 k v).iff2 = c.iff2 := by cases k <;> rfl
@[simp] theorem Module.setRp2_im (c : Module) (k : Rp2) (v : Word) : (c.setRp2 k v).im = c.im := by cases k <;> rfl
@[simp] theorem Module.setRp2_halted (c : Module) (k : Rp2) (v : Word) : (c.setRp2 k v).halted = c.halted := by cases k <;> rfl
@[simp] theorem Module.setRp2_memptr (c : Module) (k : Rp2) (v : Word) : (c.setRp2 k v).memptr = c.memptr := by cases k <;> rfl
@[simp] theorem Module.setRp2_q (c : Module) (k : Rp2) (v : Word) : (c.setRp2 k v).q = c.q := by cases k <;> rfl
@[simp] theorem Module.setRp2_eiDelay (c : Module) (k : Rp2) (v : Word) : (c.setRp2 k v).eiDelay = c.eiDelay := by cases k <;> rfl
@[simp] theorem Module.setRp2_prefixBlock (c : Module) (k : Rp2) (v : Word) : (c.setRp2 k v).prefixBlock = c.prefixBlock := by cases k <;> rfl
@[simp] theorem Module.setRp2_nmiPending (c : Module) (k : Rp2) (v : Word) : (c.setRp2 k v).nmiPending = c.nmiPending := by cases k <;> rfl
@[simp] theorem Module.setRp2_nmiPrev (c : Module) (k : Rp2) (v : Word) : (c.setRp2 k v).nmiPrev = c.nmiPrev := by cases k <;> rfl
@[simp] theorem Module.setRp2_ldair (c : Module) (k : Rp2) (v : Word) : (c.setRp2 k v).ldair = c.ldair := by cases k <;> rfl
@[simp] theorem Module.setRp2_retiSeen (c : Module) (k : Rp2) (v : Word) : (c.setRp2 k v).retiSeen = c.retiSeen := by cases k <;> rfl
@[simp] theorem Module.setRp2_port7FFD (c : Module) (k : Rp2) (v : Word) : (c.setRp2 k v).port7FFD = c.port7FFD := by cases k <;> rfl
@[simp] theorem Module.setRp2_trdos (c : Module) (k : Rp2) (v : Word) : (c.setRp2 k v).trdos = c.trdos := by cases k <;> rfl
@[simp] theorem Module.setRp2_t (c : Module) (k : Rp2) (v : Word) : (c.setRp2 k v).t = c.t := by cases k <;> rfl
@[simp] theorem Module.setIdx_a (c : Module) (k : IdxReg) (v : Word) : (c.setIdx k v).a = c.a := by cases k <;> rfl
@[simp] theorem Module.setIdx_f (c : Module) (k : IdxReg) (v : Word) : (c.setIdx k v).f = c.f := by cases k <;> rfl
@[simp] theorem Module.setIdx_b (c : Module) (k : IdxReg) (v : Word) : (c.setIdx k v).b = c.b := by cases k <;> rfl
@[simp] theorem Module.setIdx_c (c : Module) (k : IdxReg) (v : Word) : (c.setIdx k v).c = c.c := by cases k <;> rfl
@[simp] theorem Module.setIdx_d (c : Module) (k : IdxReg) (v : Word) : (c.setIdx k v).d = c.d := by cases k <;> rfl
@[simp] theorem Module.setIdx_e (c : Module) (k : IdxReg) (v : Word) : (c.setIdx k v).e = c.e := by cases k <;> rfl
@[simp] theorem Module.setIdx_h (c : Module) (k : IdxReg) (v : Word) : (c.setIdx k v).h = c.h := by cases k <;> rfl
@[simp] theorem Module.setIdx_l (c : Module) (k : IdxReg) (v : Word) : (c.setIdx k v).l = c.l := by cases k <;> rfl
@[simp] theorem Module.setIdx_a' (c : Module) (k : IdxReg) (v : Word) : (c.setIdx k v).a' = c.a' := by cases k <;> rfl
@[simp] theorem Module.setIdx_f' (c : Module) (k : IdxReg) (v : Word) : (c.setIdx k v).f' = c.f' := by cases k <;> rfl
@[simp] theorem Module.setIdx_b' (c : Module) (k : IdxReg) (v : Word) : (c.setIdx k v).b' = c.b' := by cases k <;> rfl
@[simp] theorem Module.setIdx_c' (c : Module) (k : IdxReg) (v : Word) : (c.setIdx k v).c' = c.c' := by cases k <;> rfl
@[simp] theorem Module.setIdx_d' (c : Module) (k : IdxReg) (v : Word) : (c.setIdx k v).d' = c.d' := by cases k <;> rfl
@[simp] theorem Module.setIdx_e' (c : Module) (k : IdxReg) (v : Word) : (c.setIdx k v).e' = c.e' := by cases k <;> rfl
@[simp] theorem Module.setIdx_h' (c : Module) (k : IdxReg) (v : Word) : (c.setIdx k v).h' = c.h' := by cases k <;> rfl
@[simp] theorem Module.setIdx_l' (c : Module) (k : IdxReg) (v : Word) : (c.setIdx k v).l' = c.l' := by cases k <;> rfl
@[simp] theorem Module.setIdx_sp (c : Module) (k : IdxReg) (v : Word) : (c.setIdx k v).sp = c.sp := by cases k <;> rfl
@[simp] theorem Module.setIdx_pc (c : Module) (k : IdxReg) (v : Word) : (c.setIdx k v).pc = c.pc := by cases k <;> rfl
@[simp] theorem Module.setIdx_i (c : Module) (k : IdxReg) (v : Word) : (c.setIdx k v).i = c.i := by cases k <;> rfl
@[simp] theorem Module.setIdx_r (c : Module) (k : IdxReg) (v : Word) : (c.setIdx k v).r = c.r := by cases k <;> rfl
@[simp] theorem Module.setIdx_iff1 (c : Module) (k : IdxReg) (v : Word) : (c.setIdx k v).iff1 = c.iff1 := by cases k <;> rfl
@[simp] theorem Module.setIdx_iff2 (c : Module) (k : IdxReg) (v : Word) : (c.setIdx k v).iff2 = c.iff2 := by cases k <;> rfl
@[simp] theorem Module.setIdx_im (c : Module) (k : IdxReg) (v : Word) : (c.setIdx k v).im = c.im := by cases k <;> rfl
@[simp] theorem Module.setIdx_halted (c : Module) (k : IdxReg) (v : Word) : (c.setIdx k v).halted = c.halted := by cases k <;> rfl
@[simp] theorem Module.setIdx_memptr (c : Module) (k : IdxReg) (v : Word) : (c.setIdx k v).memptr = c.memptr := by cases k <;> rfl
@[simp] theorem Module.setIdx_q (c : Module) (k : IdxReg) (v : Word) : (c.setIdx k v).q = c.q := by cases k <;> rfl
@[simp] theorem Module.setIdx_eiDelay (c : Module) (k : IdxReg) (v : Word) : (c.setIdx k v).eiDelay = c.eiDelay := by cases k <;> rfl
@[simp] theorem Module.setIdx_prefixBlock (c : Module) (k : IdxReg) (v : Word) : (c.setIdx k v).prefixBlock = c.prefixBlock := by cases k <;> rfl
@[simp] theorem Module.setIdx_nmiPending (c : Module) (k : IdxReg) (v : Word) : (c.setIdx k v).nmiPending = c.nmiPending := by cases k <;> rfl
@[simp] theorem Module.setIdx_nmiPrev (c : Module) (k : IdxReg) (v : Word) : (c.setIdx k v).nmiPrev = c.nmiPrev := by cases k <;> rfl
@[simp] theorem Module.setIdx_ldair (c : Module) (k : IdxReg) (v : Word) : (c.setIdx k v).ldair = c.ldair := by cases k <;> rfl
@[simp] theorem Module.setIdx_retiSeen (c : Module) (k : IdxReg) (v : Word) : (c.setIdx k v).retiSeen = c.retiSeen := by cases k <;> rfl
@[simp] theorem Module.setIdx_port7FFD (c : Module) (k : IdxReg) (v : Word) : (c.setIdx k v).port7FFD = c.port7FFD := by cases k <;> rfl
@[simp] theorem Module.setIdx_trdos (c : Module) (k : IdxReg) (v : Word) : (c.setIdx k v).trdos = c.trdos := by cases k <;> rfl
@[simp] theorem Module.setIdx_t (c : Module) (k : IdxReg) (v : Word) : (c.setIdx k v).t = c.t := by cases k <;> rfl
@[simp] theorem Module.setHalf_a (c : Module) (x : IdxReg) (k : Half) (v : Byte) : (c.setHalf x k v).a = c.a := by
  cases k <;> cases x <;> rfl
@[simp] theorem Module.setHalf_f (c : Module) (x : IdxReg) (k : Half) (v : Byte) : (c.setHalf x k v).f = c.f := by
  cases k <;> cases x <;> rfl
@[simp] theorem Module.setHalf_b (c : Module) (x : IdxReg) (k : Half) (v : Byte) : (c.setHalf x k v).b = c.b := by
  cases k <;> cases x <;> rfl
@[simp] theorem Module.setHalf_c (c : Module) (x : IdxReg) (k : Half) (v : Byte) : (c.setHalf x k v).c = c.c := by
  cases k <;> cases x <;> rfl
@[simp] theorem Module.setHalf_d (c : Module) (x : IdxReg) (k : Half) (v : Byte) : (c.setHalf x k v).d = c.d := by
  cases k <;> cases x <;> rfl
@[simp] theorem Module.setHalf_e (c : Module) (x : IdxReg) (k : Half) (v : Byte) : (c.setHalf x k v).e = c.e := by
  cases k <;> cases x <;> rfl
@[simp] theorem Module.setHalf_h (c : Module) (x : IdxReg) (k : Half) (v : Byte) : (c.setHalf x k v).h = c.h := by
  cases k <;> cases x <;> rfl
@[simp] theorem Module.setHalf_l (c : Module) (x : IdxReg) (k : Half) (v : Byte) : (c.setHalf x k v).l = c.l := by
  cases k <;> cases x <;> rfl
@[simp] theorem Module.setHalf_a' (c : Module) (x : IdxReg) (k : Half) (v : Byte) : (c.setHalf x k v).a' = c.a' := by
  cases k <;> cases x <;> rfl
@[simp] theorem Module.setHalf_f' (c : Module) (x : IdxReg) (k : Half) (v : Byte) : (c.setHalf x k v).f' = c.f' := by
  cases k <;> cases x <;> rfl
@[simp] theorem Module.setHalf_b' (c : Module) (x : IdxReg) (k : Half) (v : Byte) : (c.setHalf x k v).b' = c.b' := by
  cases k <;> cases x <;> rfl
@[simp] theorem Module.setHalf_c' (c : Module) (x : IdxReg) (k : Half) (v : Byte) : (c.setHalf x k v).c' = c.c' := by
  cases k <;> cases x <;> rfl
@[simp] theorem Module.setHalf_d' (c : Module) (x : IdxReg) (k : Half) (v : Byte) : (c.setHalf x k v).d' = c.d' := by
  cases k <;> cases x <;> rfl
@[simp] theorem Module.setHalf_e' (c : Module) (x : IdxReg) (k : Half) (v : Byte) : (c.setHalf x k v).e' = c.e' := by
  cases k <;> cases x <;> rfl
@[simp] theorem Module.setHalf_h' (c : Module) (x : IdxReg) (k : Half) (v : Byte) : (c.setHalf x k v).h' = c.h' := by
  cases k <;> cases x <;> rfl
@[simp] theorem Module.setHalf_l' (c : Module) (x : IdxReg) (k : Half) (v : Byte) : (c.setHalf x k v).l' = c.l' := by
  cases k <;> cases x <;> rfl
@[simp] theorem Module.setHalf_sp (c : Module) (x : IdxReg) (k : Half) (v : Byte) : (c.setHalf x k v).sp = c.sp := by
  cases k <;> cases x <;> rfl
@[simp] theorem Module.setHalf_pc (c : Module) (x : IdxReg) (k : Half) (v : Byte) : (c.setHalf x k v).pc = c.pc := by
  cases k <;> cases x <;> rfl
@[simp] theorem Module.setHalf_i (c : Module) (x : IdxReg) (k : Half) (v : Byte) : (c.setHalf x k v).i = c.i := by
  cases k <;> cases x <;> rfl
@[simp] theorem Module.setHalf_r (c : Module) (x : IdxReg) (k : Half) (v : Byte) : (c.setHalf x k v).r = c.r := by
  cases k <;> cases x <;> rfl
@[simp] theorem Module.setHalf_iff1 (c : Module) (x : IdxReg) (k : Half) (v : Byte) : (c.setHalf x k v).iff1 = c.iff1 := by
  cases k <;> cases x <;> rfl
@[simp] theorem Module.setHalf_iff2 (c : Module) (x : IdxReg) (k : Half) (v : Byte) : (c.setHalf x k v).iff2 = c.iff2 := by
  cases k <;> cases x <;> rfl
@[simp] theorem Module.setHalf_im (c : Module) (x : IdxReg) (k : Half) (v : Byte) : (c.setHalf x k v).im = c.im := by
  cases k <;> cases x <;> rfl
@[simp] theorem Module.setHalf_halted (c : Module) (x : IdxReg) (k : Half) (v : Byte) : (c.setHalf x k v).halted = c.halted := by
  cases k <;> cases x <;> rfl
@[simp] theorem Module.setHalf_memptr (c : Module) (x : IdxReg) (k : Half) (v : Byte) : (c.setHalf x k v).memptr = c.memptr := by
  cases k <;> cases x <;> rfl
@[simp] theorem Module.setHalf_q (c : Module) (x : IdxReg) (k : Half) (v : Byte) : (c.setHalf x k v).q = c.q := by
  cases k <;> cases x <;> rfl
@[simp] theorem Module.setHalf_eiDelay (c : Module) (x : IdxReg) (k : Half) (v : Byte) : (c.setHalf x k v).eiDelay = c.eiDelay := by
  cases k <;> cases x <;> rfl
@[simp] theorem Module.setHalf_prefixBlock (c : Module) (x : IdxReg) (k : Half) (v : Byte) : (c.setHalf x k v).prefixBlock = c.prefixBlock := by
  cases k <;> cases x <;> rfl
@[simp] theorem Module.setHalf_nmiPending (c : Module) (x : IdxReg) (k : Half) (v : Byte) : (c.setHalf x k v).nmiPending = c.nmiPending := by
  cases k <;> cases x <;> rfl
@[simp] theorem Module.setHalf_nmiPrev (c : Module) (x : IdxReg) (k : Half) (v : Byte) : (c.setHalf x k v).nmiPrev = c.nmiPrev := by
  cases k <;> cases x <;> rfl
@[simp] theorem Module.setHalf_ldair (c : Module) (x : IdxReg) (k : Half) (v : Byte) : (c.setHalf x k v).ldair = c.ldair := by
  cases k <;> cases x <;> rfl
@[simp] theorem Module.setHalf_retiSeen (c : Module) (x : IdxReg) (k : Half) (v : Byte) : (c.setHalf x k v).retiSeen = c.retiSeen := by
  cases k <;> cases x <;> rfl
@[simp] theorem Module.setHalf_port7FFD (c : Module) (x : IdxReg) (k : Half) (v : Byte) : (c.setHalf x k v).port7FFD = c.port7FFD := by
  cases k <;> cases x <;> rfl
@[simp] theorem Module.setHalf_trdos (c : Module) (x : IdxReg) (k : Half) (v : Byte) : (c.setHalf x k v).trdos = c.trdos := by
  cases k <;> cases x <;> rfl
@[simp] theorem Module.setHalf_t (c : Module) (x : IdxReg) (k : Half) (v : Byte) : (c.setHalf x k v).t = c.t := by
  cases k <;> cases x <;> rfl
@[simp] theorem Module.setHreg_f (c : Module) (x : IdxReg) (k : HReg) (v : Byte) : (c.setHreg x k v).f = c.f := by
  cases k <;> cases x <;> rfl
@[simp] theorem Module.setHreg_h (c : Module) (x : IdxReg) (k : HReg) (v : Byte) : (c.setHreg x k v).h = c.h := by
  cases k <;> cases x <;> rfl
@[simp] theorem Module.setHreg_l (c : Module) (x : IdxReg) (k : HReg) (v : Byte) : (c.setHreg x k v).l = c.l := by
  cases k <;> cases x <;> rfl
@[simp] theorem Module.setHreg_a' (c : Module) (x : IdxReg) (k : HReg) (v : Byte) : (c.setHreg x k v).a' = c.a' := by
  cases k <;> cases x <;> rfl
@[simp] theorem Module.setHreg_f' (c : Module) (x : IdxReg) (k : HReg) (v : Byte) : (c.setHreg x k v).f' = c.f' := by
  cases k <;> cases x <;> rfl
@[simp] theorem Module.setHreg_b' (c : Module) (x : IdxReg) (k : HReg) (v : Byte) : (c.setHreg x k v).b' = c.b' := by
  cases k <;> cases x <;> rfl
@[simp] theorem Module.setHreg_c' (c : Module) (x : IdxReg) (k : HReg) (v : Byte) : (c.setHreg x k v).c' = c.c' := by
  cases k <;> cases x <;> rfl
@[simp] theorem Module.setHreg_d' (c : Module) (x : IdxReg) (k : HReg) (v : Byte) : (c.setHreg x k v).d' = c.d' := by
  cases k <;> cases x <;> rfl
@[simp] theorem Module.setHreg_e' (c : Module) (x : IdxReg) (k : HReg) (v : Byte) : (c.setHreg x k v).e' = c.e' := by
  cases k <;> cases x <;> rfl
@[simp] theorem Module.setHreg_h' (c : Module) (x : IdxReg) (k : HReg) (v : Byte) : (c.setHreg x k v).h' = c.h' := by
  cases k <;> cases x <;> rfl
@[simp] theorem Module.setHreg_l' (c : Module) (x : IdxReg) (k : HReg) (v : Byte) : (c.setHreg x k v).l' = c.l' := by
  cases k <;> cases x <;> rfl
@[simp] theorem Module.setHreg_sp (c : Module) (x : IdxReg) (k : HReg) (v : Byte) : (c.setHreg x k v).sp = c.sp := by
  cases k <;> cases x <;> rfl
@[simp] theorem Module.setHreg_pc (c : Module) (x : IdxReg) (k : HReg) (v : Byte) : (c.setHreg x k v).pc = c.pc := by
  cases k <;> cases x <;> rfl
@[simp] theorem Module.setHreg_i (c : Module) (x : IdxReg) (k : HReg) (v : Byte) : (c.setHreg x k v).i = c.i := by
  cases k <;> cases x <;> rfl
@[simp] theorem Module.setHreg_r (c : Module) (x : IdxReg) (k : HReg) (v : Byte) : (c.setHreg x k v).r = c.r := by
  cases k <;> cases x <;> rfl
@[simp] theorem Module.setHreg_iff1 (c : Module) (x : IdxReg) (k : HReg) (v : Byte) : (c.setHreg x k v).iff1 = c.iff1 := by
  cases k <;> cases x <;> rfl
@[simp] theorem Module.setHreg_iff2 (c : Module) (x : IdxReg) (k : HReg) (v : Byte) : (c.setHreg x k v).iff2 = c.iff2 := by
  cases k <;> cases x <;> rfl
@[simp] theorem Module.setHreg_im (c : Module) (x : IdxReg) (k : HReg) (v : Byte) : (c.setHreg x k v).im = c.im := by
  cases k <;> cases x <;> rfl
@[simp] theorem Module.setHreg_halted (c : Module) (x : IdxReg) (k : HReg) (v : Byte) : (c.setHreg x k v).halted = c.halted := by
  cases k <;> cases x <;> rfl
@[simp] theorem Module.setHreg_memptr (c : Module) (x : IdxReg) (k : HReg) (v : Byte) : (c.setHreg x k v).memptr = c.memptr := by
  cases k <;> cases x <;> rfl
@[simp] theorem Module.setHreg_q (c : Module) (x : IdxReg) (k : HReg) (v : Byte) : (c.setHreg x k v).q = c.q := by
  cases k <;> cases x <;> rfl
@[simp] theorem Module.setHreg_eiDelay (c : Module) (x : IdxReg) (k : HReg) (v : Byte) : (c.setHreg x k v).eiDelay = c.eiDelay := by
  cases k <;> cases x <;> rfl
@[simp] theorem Module.setHreg_prefixBlock (c : Module) (x : IdxReg) (k : HReg) (v : Byte) : (c.setHreg x k v).prefixBlock = c.prefixBlock := by
  cases k <;> cases x <;> rfl
@[simp] theorem Module.setHreg_nmiPending (c : Module) (x : IdxReg) (k : HReg) (v : Byte) : (c.setHreg x k v).nmiPending = c.nmiPending := by
  cases k <;> cases x <;> rfl
@[simp] theorem Module.setHreg_nmiPrev (c : Module) (x : IdxReg) (k : HReg) (v : Byte) : (c.setHreg x k v).nmiPrev = c.nmiPrev := by
  cases k <;> cases x <;> rfl
@[simp] theorem Module.setHreg_ldair (c : Module) (x : IdxReg) (k : HReg) (v : Byte) : (c.setHreg x k v).ldair = c.ldair := by
  cases k <;> cases x <;> rfl
@[simp] theorem Module.setHreg_retiSeen (c : Module) (x : IdxReg) (k : HReg) (v : Byte) : (c.setHreg x k v).retiSeen = c.retiSeen := by
  cases k <;> cases x <;> rfl
@[simp] theorem Module.setHreg_port7FFD (c : Module) (x : IdxReg) (k : HReg) (v : Byte) : (c.setHreg x k v).port7FFD = c.port7FFD := by
  cases k <;> cases x <;> rfl
@[simp] theorem Module.setHreg_trdos (c : Module) (x : IdxReg) (k : HReg) (v : Byte) : (c.setHreg x k v).trdos = c.trdos := by
  cases k <;> cases x <;> rfl
@[simp] theorem Module.setHreg_t (c : Module) (x : IdxReg) (k : HReg) (v : Byte) : (c.setHreg x k v).t = c.t := by
  cases k <;> cases x <;> rfl

/-! ### Operands written: what is read back -/

@[simp] theorem hiByte_pair (h l : Byte) : hiByte (pair h l) = h := by
  simp only [hiByte, pair, BitVec.extractLsb'_append_eq_of_le (Nat.le_refl 8)]; simp

@[simp] theorem loByte_pair (h l : Byte) : loByte (pair h l) = l := by
  apply BitVec.eq_of_getLsbD_eq
  intro i hi
  simp only [loByte, pair, BitVec.getLsbD_extractLsb', BitVec.getLsbD_append]
  simp [hi]

@[simp] theorem pair_hiByte_loByte (v : Word) : pair (hiByte v) (loByte v) = v := by
  apply BitVec.eq_of_getLsbD_eq
  intro i hi
  simp only [hiByte, loByte, pair, BitVec.getLsbD_append, BitVec.getLsbD_extractLsb']
  by_cases h : i < 8
  · simp [h]
  · have : 8 + (i - 8) = i := by omega
    simp [h, this]
    omega

@[simp] theorem Module.reg8_setReg8_self (c : Module) (r : Reg8) (v : Byte) : (c.setReg8 r v).reg8 r = v := by
  cases r <;> rfl

theorem Module.reg8_setReg8_of_ne (c : Module) {r r' : Reg8} (h : r' ≠ r) (v : Byte) :
    (c.setReg8 r v).reg8 r' = c.reg8 r' := by
  cases r <;> cases r' <;> first | rfl | exact absurd rfl h

@[simp] theorem Module.rp_setRp_self (c : Module) (p : Rp) (v : Word) : (c.setRp p v).rp p = v := by
  cases p <;> simp [Module.setRp, Module.rp, Module.bc, Module.de, Module.hl]

@[simp] theorem Module.rp2_setRp2_self (c : Module) (p : Rp2) (v : Word) : (c.setRp2 p v).rp2 p = v := by
  cases p <;> simp [Module.setRp2, Module.rp2, Module.bc, Module.de, Module.hl, Module.af]

@[simp] theorem Module.idx_setIdx_self (c : Module) (x : IdxReg) (v : Word) : (c.setIdx x v).idx x = v := by
  cases x <;> rfl

@[simp] theorem Module.half_setHalf_self (c : Module) (x : IdxReg) (h : Half) (v : Byte) : (c.setHalf x h v).half x h = v := by
  cases h <;> simp [Module.setHalf, Module.half]

@[simp] theorem Module.hreg_setHreg_self (c : Module) (x : IdxReg) (p : HReg) (v : Byte) : (c.setHreg x p v).hreg x p = v := by
  cases p <;> first | rfl | simp [Module.setHreg, Module.hreg]

end Machine

end Sys2Proof
end

