-- ==== Sys2Proof/Laws/Flags.lean ====
section
/-!
SUPPORT. What each flag of a packed flag byte is, and the flag computations as the relations between values of Safety.lean.
-/

namespace Sys2Proof.Machine

/-! ### The flag byte -/

@[simp] theorem flagS_packFlags (s z y h x p n c : Bool) : flagS (packFlags s z y h x p n c) = s := by
  revert s z y h x p n c; decide

@[simp] theorem flagZ_packFlags (s z y h x p n c : Bool) : flagZ (packFlags s z y h x p n c) = z := by
  revert s z y h x p n c; decide

@[simp] theorem flagY_packFlags (s z y h x p n c : Bool) : flagY (packFlags s z y h x p n c) = y := by
  revert s z y h x p n c; decide

@[simp] theorem flagH_packFlags (s z y h x p n c : Bool) : flagH (packFlags s z y h x p n c) = h := by
  revert s z y h x p n c; decide

@[simp] theorem flagX_packFlags (s z y h x p n c : Bool) : flagX (packFlags s z y h x p n c) = x := by
  revert s z y h x p n c; decide

@[simp] theorem flagP_packFlags (s z y h x p n c : Bool) : flagP (packFlags s z y h x p n c) = p := by
  revert s z y h x p n c; decide

@[simp] theorem flagN_packFlags (s z y h x p n c : Bool) : flagN (packFlags s z y h x p n c) = n := by
  revert s z y h x p n c; decide

@[simp] theorem flagC_packFlags (s z y h x p n c : Bool) : flagC (packFlags s z y h x p n c) = c := by
  revert s z y h x p n c; decide

/-- The flag byte is its eight flags (R40). -/
theorem packFlags_flags (f : Byte) :
    packFlags (flagS f) (flagZ f) (flagY f) (flagH f) (flagX f) (flagP f) (flagN f) (flagC f) = f := by
  revert f; decide +kernel

/-- The Boolean test of equality is the decision of equality. -/
theorem beq_bits {w : Nat} (r r' : BitVec w) : (r == r') = decide (r = r') := by
  rw [Bool.eq_iff_iff]; simp

theorem carryNat_eq (c : Bool) : carryNat c = c.toNat := by cases c <;> rfl

/-- The parity of a byte counts its set bits (R13). -/
theorem parity_eq (v : Byte) : parity v = decide (bitCount v % 2 = 0) := by
  revert v; decide +kernel

/-! ### Arithmetic and logic -/

theorem logicRule_logicFlags (r : Byte) (h : Bool) : LogicRule r h (logicFlags r h) := by
  simp [LogicRule, FlagsSZXY, ParityRule, logicFlags, parity_eq, beq_bits]

/-- The adder's result and flags are those of the sum (R241). -/
theorem adderRule_add (a v : Byte) (cin : Bool) : AdderRule a v cin (addResult a v cin) (addFlags a v cin) := by
  have hr : (addResult a v cin).toNat = (a.toNat + v.toNat + cin.toNat) % 256 := by
    cases cin <;> simp [addResult]
  have ha := a.isLt
  have hv := v.isLt
  have m (b : Byte) : b.getLsbD 7 = decide (128 ≤ b.toNat) := BitVec.msb_eq_decide b
  have i (b : Byte) : b.toInt = if b.toNat < 128 then (b.toNat : Int) else b.toNat - 256 := by
    rw [BitVec.toInt_eq_toNat_cond]; split <;> split <;> omega
  have hc : cin.toNat ≤ 1 := Bool.toNat_le cin
  refine ⟨by rw [hr, carryNat_eq], ?_, ?_, ?_, ?_, ?_, ?_⟩
  · simp [FlagsSZXY, addFlags, beq_bits]
  · simp [addFlags, carryNat_eq]
  · simp only [addFlags, flagP_packFlags]
  · simp only [addFlags, flagP_packFlags, m, i, carryNat_eq, hr, Bool.and_eq_true, beq_iff_eq, bne_iff_ne, ne_eq, decide_eq_decide]
    split <;> split <;> omega
  · simp [addFlags]
  · simp [addFlags, carryNat_eq]

/-- The subtractor's result and flags are those of the difference, Y and X apart (R241). -/
theorem subtractorRule_sub (a v : Byte) (cin : Bool) (xy : Byte) :
    SubtractorRule a v cin (subResult a v cin) (subFlagsXY a v cin xy) := by
  have hr : ((subResult a v cin).toNat : Int) = ((a.toNat : Int) - v.toNat - cin.toNat) % 256 := by
    have ha := a.isLt
    have hv := v.isLt
    cases cin <;> simp [subResult, BitVec.toNat_sub] <;> omega
  have ha := a.isLt
  have hv := v.isLt
  have m (b : Byte) : b.getLsbD 7 = decide (128 ≤ b.toNat) := BitVec.msb_eq_decide b
  have i (b : Byte) : b.toInt = if b.toNat < 128 then (b.toNat : Int) else b.toNat - 256 := by
    rw [BitVec.toInt_eq_toNat_cond]; split <;> split <;> omega
  have hc : cin.toNat ≤ 1 := Bool.toNat_le cin
  refine ⟨by rw [hr, carryNat_eq], ?_, ?_, ?_, ?_, ?_, ?_, ?_⟩
  · simp [subFlagsXY]
  · simp [subFlagsXY, beq_bits]
  · simp only [subFlagsXY, flagH_packFlags, carryNat_eq, decide_eq_decide]; omega
  · simp only [subFlagsXY, flagP_packFlags]
  · simp only [subFlagsXY, flagP_packFlags, m, i, carryNat_eq, Bool.and_eq_true, bne_iff_ne, ne_eq, decide_eq_decide]
    split <;> split <;> omega
  · simp [subFlagsXY]
  · simp only [subFlagsXY, flagC_packFlags, carryNat_eq, decide_eq_decide]; omega

theorem flagsYX_sub (a v : Byte) (cin : Bool) (xy : Byte) : FlagsYX xy (subFlagsXY a v cin xy) := by
  simp [FlagsYX, subFlagsXY]

/-! ### Rotates and shifts -/

/-- The table of R321, case by case. -/
theorem rotRule_rot (op : RotOp) (v : Byte) (c : Bool) : RotRule op v c (rotResult op v c) (rotCarry op v) := by
  cases op <;> (revert v c; unfold RotRule; decide +kernel)

end Sys2Proof.Machine
end

