-- ==== Sys2Proof/Laws/Memory.lean ====
section
/-!
SUPPORT. The byte store: a read after a write, and the canonical form kept by every write; then the same of the board's reads
and writes of bytes, words and the stack.
-/

namespace Sys2Proof.Machine

/-! ### The store -/

theorem Mem.wfFrom_mono {lo lo' : Nat} (h : lo' ≤ lo) : ∀ {m : Mem}, Mem.wfFrom lo m = true → Mem.wfFrom lo' m = true
  | [], _ => rfl
  | (k, v) :: m, hw => by
    simp only [Mem.wfFrom, Bool.and_eq_true, decide_eq_true_eq] at hw ⊢
    exact ⟨Nat.le_trans h hw.1, hw.2⟩

/-- A read after a write: the byte written at its address, what was there at any other. -/
theorem Mem.read_write (a b : Nat) (v : Byte) : ∀ m : Mem, (m.write a v).read b = if b = a then some v else m.read b
  | [] => by simp [Mem.write, Mem.read]
  | (k, w) :: m => by
    unfold Mem.write
    split
    · rfl
    · split
      · subst a; simp only [Mem.read]; split <;> rfl
      · simp only [Mem.read, Mem.read_write a b v m]
        split
        · rw [if_neg (by omega)]
        · rfl

theorem Mem.wfFrom_write (a : Nat) (v : Byte) : ∀ {lo : Nat} {m : Mem}, lo ≤ a → Mem.wfFrom lo m = true →
    Mem.wfFrom lo (m.write a v) = true
  | lo, [], ha, _ => by simp [Mem.write, Mem.wfFrom, ha]
  | lo, (k, w) :: m, ha, hw => by
    simp only [Mem.wfFrom, Bool.and_eq_true, decide_eq_true_eq] at hw
    unfold Mem.write
    split
    · simp only [Mem.wfFrom, Bool.and_eq_true, decide_eq_true_eq]; exact ⟨ha, by omega, hw.2⟩
    · split
      · simpa only [Mem.wfFrom, Bool.and_eq_true, decide_eq_true_eq] using hw
      · simp only [Mem.wfFrom, Bool.and_eq_true, decide_eq_true_eq]
        exact ⟨hw.1, Mem.wfFrom_write a v (by omega) hw.2⟩

/-- Every write keeps the canonical form. -/
theorem Mem.wf_write {m : Mem} (h : m.wf = true) (a : Nat) (v : Byte) : (m.write a v).wf = true :=
  Mem.wfFrom_write a v (Nat.zero_le a) h

theorem Mem.read_of_lt {lo a : Nat} : ∀ {m : Mem}, Mem.wfFrom lo m = true → a < lo → m.read a = none
  | [], _, _ => rfl
  | (k, v) :: m, hw, ha => by
    simp only [Mem.wfFrom, Bool.and_eq_true, decide_eq_true_eq] at hw
    rw [Mem.read, if_neg (by omega)]
    exact Mem.read_of_lt hw.2 (by omega)

theorem Mem.eq_of_read_from : ∀ {lo : Nat} {m m' : Mem}, Mem.wfFrom lo m = true → Mem.wfFrom lo m' = true →
    (∀ a, m.read a = m'.read a) → m = m'
  | _, [], [], _, _, _ => rfl
  | _, [], (k, v) :: m', _, _, h => by have := h k; simp [Mem.read] at this
  | _, (k, v) :: m, [], _, _, h => by have := h k; simp [Mem.read] at this
  | lo, (k, v) :: m, (k', v') :: m', hw, hw', h => by
    simp only [Mem.wfFrom, Bool.and_eq_true, decide_eq_true_eq] at hw hw'
    have hk : k = k' := by
      rcases Nat.lt_trichotomy k k' with hlt | heq | hlt
      · have := h k
        rw [Mem.read, if_pos rfl, Mem.read, if_neg (by omega), Mem.read_of_lt hw'.2 (by omega)] at this
        cases this
      · exact heq
      · have := h k'
        rw [Mem.read, if_neg (by omega), Mem.read_of_lt hw.2 (by omega), Mem.read, if_pos rfl] at this
        cases this
    subst hk
    have hv := h k
    rw [Mem.read, if_pos rfl, Mem.read, if_pos rfl] at hv
    cases hv
    rw [Mem.eq_of_read_from hw.2 hw'.2]
    intro a
    by_cases ha : a = k
    · rw [Mem.read_of_lt hw.2 (by omega), Mem.read_of_lt hw'.2 (by omega)]
    · have := h a
      rwa [Mem.read, if_neg ha, Mem.read, if_neg ha] at this

/-- Stores in canonical form that read alike are equal as data. -/
theorem Mem.eq_of_read {m m' : Mem} (h : m.wf = true) (h' : m'.wf = true) (hr : ∀ a, m.read a = m'.read a) : m = m' :=
  Mem.eq_of_read_from h h' hr

/-- A write below the limit keeps every cell below it. -/
theorem Mem.below_write {lim a : Nat} (v : Byte) (ha : a < lim) : ∀ {m : Mem}, m.below lim = true →
    (m.write a v).below lim = true
  | [], _ => by simp [Mem.write, Mem.below, ha]
  | (k, w) :: m, h => by
    have h' : k < lim ∧ Mem.below lim m = true := by
      simpa only [Mem.below, List.all_cons, Bool.and_eq_true, decide_eq_true_eq] using h
    have cons : ∀ x y (l : Mem), x < lim → Mem.below lim l = true → Mem.below lim ((x, y) :: l) = true := by
      intro x y l hx hl
      simpa only [Mem.below, List.all_cons, Bool.and_eq_true, decide_eq_true_eq] using And.intro hx hl
    unfold Mem.write
    split
    · exact cons _ _ _ ha h
    · split
      · exact cons _ _ _ h'.1 h'.2
      · exact cons _ _ _ h'.1 (Mem.below_write (m := m) v ha h'.2)

theorem reset_heap_wf : State.reset.heap.wf = true := rfl

theorem reset_rom_wf : State.reset.rom.wf = true := rfl

/-! ### Bytes -/

theorem slotOffset_lt (a : Word) : slotOffset a < 0x4000 := (a.extractLsb' 0 14).isLt

theorem slotOffset_eq (a : Word) : slotOffset a = a.toNat % 0x4000 := by
  simp [slotOffset]

/-- Two physical addresses are the same only for one bank and one offset. -/
theorem physical_inj {j k x y : Nat} (hx : x < 0x4000) (hy : y < 0x4000) : physical j x = physical k y ↔ j = k ∧ x = y := by
  unfold physical; omega

theorem physical_lt {n k x : Nat} (hk : k < n) (hx : x < 0x4000) : physical k x < n * 0x4000 := by
  unfold physical; omega

/-- Where the map fits the heap, every page is an existing bank (R96). -/
theorem heapBank_lt {g : Config} (h : g.heapMapFits = true) (m : ModuleId) (page : Fin 8) : heapBank g m page < g.heapBanks := by
  have all : ∀ m, ((g.heapMap.get m).toList.all fun bank => decide (bank < g.heapBanks)) = true := by
    intro m
    simp only [Config.heapMapFits, Bool.and_eq_true] at h
    cases m
    · exact h.1.1.1
    · exact h.1.1.2
    · exact h.1.2
    · exact h.2
  have := List.all_eq_true.mp (all m) (heapBank g m page) (by simp [heapBank])
  simpa using this

/-- What backs RAM is a bank of the module's map (R92, R95). -/
theorem backing_lt {g : Config} (h : g.heapMapFits = true) {m : ModuleId} {c : Module} {a : Word} {bank : Nat}
    (hb : backing g m c a = .ram bank) : bank < g.heapBanks := by
  unfold backing at hb
  split at hb <;> repeat' split at hb
  all_goals cases hb
  all_goals exact heapBank_lt h _ _

/-- The heap after a byte write is in canonical form when it was before. -/
theorem State.heap_wf_writeByte {s : State} (h : s.heap.wf = true) (a : Word) (v : Byte) :
    (s.writeByte a v).heap.wf = true := by
  unfold State.writeByte; split
  · exact h
  · exact Mem.wf_write h _ _

theorem State.heap_below_writeByte {s : State} (hf : s.cfg.heapMapFits = true)
    (h : s.heap.below (s.cfg.heapBanks * 0x4000) = true) (a : Word) (v : Byte) :
    (s.writeByte a v).heap.below (s.cfg.heapBanks * 0x4000) = true := by
  unfold State.writeByte; split
  · exact h
  · next hb => exact Mem.below_write v (physical_lt (backing_lt hf hb) (slotOffset_lt a)) h

theorem State.heap_wf_writeWord {s : State} (h : s.heap.wf = true) (a v : Word) : (s.writeWord a v).heap.wf = true :=
  State.heap_wf_writeByte (State.heap_wf_writeByte h _ _) _ _

/-- What a read answers depends on the stores, the configuration and the stepping module's latch and overlay flag only. -/
theorem State.readByte_congr {s t : State} (hh : t.heap = s.heap) (hr : t.rom = s.rom) (hc : t.cfg = s.cfg) (hm : t.cur = s.cur)
    (hl : t.core.port7FFD = s.core.port7FFD) (ho : t.core.trdos = s.core.trdos) (b : Word) : t.readByte b = s.readByte b := by
  simp [State.readByte, State.readBacking, State.heapByte, State.romByte, State.backing, Machine.backing, romImage128, romImage48, hh, hr, hc, hm, hl, ho]

theorem State.readByte_setCore (s : State) (c : Module) (hl : c.port7FFD = s.core.port7FFD) (ho : c.trdos = s.core.trdos)
    (b : Word) : (s.setCore c).readByte b = s.readByte b :=
  State.readByte_congr (s := s) (t := s.setCore c) rfl rfl rfl rfl (by rw [State.core_setCore, hl])
    (by rw [State.core_setCore, ho]) b

theorem State.backing_writeByte (s : State) (a : Word) (v : Byte) (b : Word) : (s.writeByte a v).backing b = s.backing b := by
  simp [State.backing]

/-- A read after a byte write, by one module: the new byte at every address of the written RAM byte, the old one elsewhere. -/
theorem State.readByte_writeByte (s : State) (a : Word) (v : Byte) (b : Word) :
    (s.writeByte a v).readByte b =
      match s.backing a with
      | .rom _ => s.readByte b
      | .ram _ => if s.backing b = s.backing a ∧ slotOffset b = slotOffset a then v else s.readByte b := by
  have hb := State.backing_writeByte s a v b
  unfold State.readByte
  rw [hb]
  cases ha : s.backing a with
  | rom i => simp [State.writeByte, ha]
  | ram j =>
    cases hk : s.backing b with
    | rom i => simp [State.readBacking, State.romByte]
    | ram k =>
      have e := physical_inj (j := k) (k := j) (slotOffset_lt b) (slotOffset_lt a)
      simp only [State.readBacking, State.heapByte, State.writeByte, ha, Mem.read_write, e, Backing.ram.injEq]
      split <;> rfl

/-- A byte write changes the heap at the one physical byte its address names, and not at all over ROM. -/
theorem State.heap_writeByte (s : State) (a : Word) (v : Byte) :
    (∀ k, s.heapAddress a ≠ some k → (s.writeByte a v).heap.read k = s.heap.read k) ∧
      (s.heapAddress a = none → (s.writeByte a v).heap = s.heap) := by
  unfold State.heapAddress State.writeByte
  cases ha : s.backing a with
  | rom i => exact ⟨fun _ _ => rfl, fun _ => rfl⟩
  | ram bank => exact ⟨fun k hk => by rw [Mem.read_write, if_neg]; rintro rfl; exact hk rfl, nofun⟩

theorem State.heapAddress_congr {s t : State} {a : Word} (h : t.backing a = s.backing a) : t.heapAddress a = s.heapAddress a := by
  simp [State.heapAddress, h]

end Sys2Proof.Machine
end

