-- ==== Sys2Proof/Laws/Ops.lean ====
section
/-!
SUPPORT. One lemma per shared operation that says everything it does, in the terms of Safety.lean.
-/

namespace Sys2Proof.Machine

/-! ### The end of a step -/

theorem endsStep_done {c0 c : Module} (h : c.t = c0.t) (n : Nat) : EndsStep c0 ((c.spend n).endStep 0) n false := by
  simp [EndsStep, h]

theorem endsStep_doneFlags {c0 c : Module} (h : c.t = c0.t) (n : Nat) : EndsStep c0 ((c.spend n).endStep c.f) n true := by
  simp [EndsStep, h]

/-- `done` answers the state whose stepping module is `c` at the end of a step. -/
theorem runs_done {i : Instr} {n : Nat} {post : State → State → Prop} (s1 : State → State) (c : State → Module)
    (he : ∀ s, exec i s = (s1 s).done n (c s)) (ht : ∀ s, (c s).t = s.core.t)
    (hp : ∀ s, post s ((s1 s).setCore (((c s).spend n).endStep 0))) : Runs i n false post := fun s =>
  ⟨_, he s, by rw [State.core_setCore]; exact endsStep_done (ht s) n, hp s⟩

/-- `doneFlags` answers the state whose stepping module is `c` at the end of a step that wrote flags. -/
theorem runs_doneFlags {i : Instr} {n : Nat} {post : State → State → Prop} (s1 : State → State) (c : State → Module)
    (he : ∀ s, exec i s = (s1 s).doneFlags n (c s)) (ht : ∀ s, (c s).t = s.core.t)
    (hp : ∀ s, post s ((s1 s).setCore (((c s).spend n).endStep (c s).f))) : Runs i n true post := fun s =>
  ⟨_, he s, by rw [State.core_setCore]; exact endsStep_doneFlags (ht s) n, hp s⟩

/-- A step that ends with `done` or `doneFlags` is the module it is given, but for the bookkeeping. -/
theorem ended_eq (c c0 : Module) (n : Nat) (q : Byte) (h : ∀ x, c0.stepped x = c.stepped x) :
    (c.spend n).endStep q = c0.stepped ((c.spend n).endStep q) := by
  rw [h]; rfl

/-! ### What changes outside the stepping module -/

theorem quiet_setCore (s : State) (c : Module) (hl : c.port7FFD = s.core.port7FFD) (ho : c.trdos = s.core.trdos) :
    Quiet s (s.setCore c) :=
  ⟨by rw [State.core_setCore], fun b => State.readByte_setCore s c hl ho b⟩

theorem isRam_of_rom {s : State} {a : Word} {i : Fin 3} (h : s.backing a = .rom i) : s.isRam a = false := by
  simp [State.isRam, h]

theorem isRam_of_ram {s : State} {a : Word} {k : Nat} (h : s.backing a = .ram k) : s.isRam a = true := by
  simp [State.isRam, h]

/-- A read after a byte write, as `Stores` says it. -/
theorem readByte_writeByte_eq (s : State) (a : Word) (v : Byte) (b : Word) :
    (s.writeByte a v).readByte b = if s.isRam a && s.sameByte a b then v else s.readByte b := by
  rw [State.readByte_writeByte]
  cases ha : s.backing a with
  | rom i => simp [isRam_of_rom ha]
  | ram k =>
    simp only [isRam_of_ram ha, State.sameByte, ha, Bool.true_and, Bool.and_eq_true, beq_iff_eq,
      eq_comm (a := s.backing b), eq_comm (a := slotOffset b)]

theorem heapKept_one {s s' : State} {a : Word} (h : (∀ k, s.heapAddress a ≠ some k → s'.heap.read k = s.heap.read k) ∧
    (s.heapAddress a = none → s'.heap = s.heap)) : HeapKept s s' [a] :=
  ⟨fun k hk => h.1 k (hk a (List.mem_singleton_self a)), fun hn => h.2 (hn a (List.mem_singleton_self a))⟩

/-- Two byte writes, in either order, keep every other byte of the heap. -/
theorem heapKept_two (s : State) (a b : Word) (v w : Byte) {l : List Word} (ha : a ∈ l) (hb : b ∈ l) :
    HeapKept s ((s.writeByte a v).writeByte b w) l := by
  have h1 := State.heap_writeByte s a v
  have h2 := State.heap_writeByte (s.writeByte a v) b w
  rw [State.heapAddress_congr (State.backing_writeByte s a v b)] at h2
  exact ⟨fun k hk => (h2.1 k (hk b hb)).trans (h1.1 k (hk a ha)), fun hn => (h2.2 (hn b hb)).trans (h1.2 (hn a ha))⟩

theorem stores_writeByte (s : State) (a : Word) (v : Byte) (c : Module) (hl : c.port7FFD = s.core.port7FFD)
    (ho : c.trdos = s.core.trdos) : Stores s ((s.writeByte a v).setCore c) a v := by
  refine ⟨?_, fun b => ?_, heapKept_one (State.heap_writeByte s a v)⟩
  · rw [State.core_setCore, State.setCore_heap, ← State.writeByte_eq]
  · rw [State.readByte_setCore _ _ (by rw [State.core_writeByte, hl]) (by rw [State.core_writeByte, ho]),
      readByte_writeByte_eq]

/-- The two bytes of a word are two physical bytes. -/
theorem slotOffset_succ_ne (a : Word) : slotOffset (a + 1) ≠ slotOffset a := by
  have h : (a + 1).toNat = (a.toNat + 1) % 65536 := BitVec.toNat_add a 1
  rw [slotOffset_eq, slotOffset_eq, h]
  have := a.isLt
  omega

theorem sameByte_succ (s : State) (a b : Word) : s.sameByte a b = true → s.sameByte (a + 1) b = false := by
  simp only [State.sameByte, Bool.and_eq_true, beq_iff_eq, Bool.and_eq_false_iff, beq_eq_false_iff_ne]
  exact fun h => Or.inr fun h' => slotOffset_succ_ne a (h'.trans h.2.symm)

theorem isRam_congr {s t : State} (h : ∀ a, t.backing a = s.backing a) (a : Word) : t.isRam a = s.isRam a := by
  simp [State.isRam, h]

theorem sameByte_congr {s t : State} (h : ∀ a, t.backing a = s.backing a) (a b : Word) : t.sameByte a b = s.sameByte a b := by
  simp [State.sameByte, h]

/-- Two byte writes, the higher address second. -/
theorem readByte_write_low_high (s : State) (a : Word) (lo hi : Byte) (b : Word) :
    ((s.writeByte a lo).writeByte (a + 1) hi).readByte b =
      if s.isRam a && s.sameByte a b then lo
      else if s.isRam (a + 1) && s.sameByte (a + 1) b then hi else s.readByte b := by
  rw [readByte_writeByte_eq, readByte_writeByte_eq,
    isRam_congr (State.backing_writeByte s a lo), sameByte_congr (State.backing_writeByte s a lo)]
  by_cases h1 : s.sameByte a b = true
  · rw [sameByte_succ s a b h1, Bool.and_false]; rfl
  · rw [Bool.not_eq_true] at h1
    rw [h1, Bool.and_false]; rfl

/-- Two byte writes, the higher address first. -/
theorem readByte_write_high_low (s : State) (a : Word) (lo hi : Byte) (b : Word) :
    ((s.writeByte (a + 1) hi).writeByte a lo).readByte b =
      if s.isRam a && s.sameByte a b then lo
      else if s.isRam (a + 1) && s.sameByte (a + 1) b then hi else s.readByte b := by
  rw [readByte_writeByte_eq, readByte_writeByte_eq,
    isRam_congr (State.backing_writeByte s (a + 1) hi), sameByte_congr (State.backing_writeByte s (a + 1) hi)]

theorem State.writeTwo_eq (s : State) (a b : Word) (v w : Byte) :
    (s.writeByte a v).writeByte b w = { s with heap := ((s.writeByte a v).writeByte b w).heap } := by
  rw [State.writeByte_eq (s.writeByte a v)]
  simp only [State.writeByte_cfg, State.writeByte_mods, State.writeByte_cur, State.writeByte_rom, State.writeByte_frameNo,
    State.writeByte_nmiLine, State.writeByte_resetReq, State.writeByte_wallInt, State.writeByte_frameStartPending,
    State.writeByte_resetSeen, State.writeByte_borderCur, State.writeByte_borderLine, State.writeByte_keysLive,
    State.writeByte_keysVisible, State.writeByte_joyLive, State.writeByte_joyVisible, State.writeByte_tapeIn,
    State.writeByte_hostInputs, State.writeByte_draws]

theorem State.writeWord_eq (s : State) (a v : Word) : s.writeWord a v = { s with heap := (s.writeWord a v).heap } :=
  State.writeTwo_eq s a (a + 1) _ _

theorem storesTwo_writeWord (s : State) (a v : Word) (c : Module) (hl : c.port7FFD = s.core.port7FFD)
    (ho : c.trdos = s.core.trdos) : StoresTwo s ((s.writeWord a v).setCore c) a (loByte v) (hiByte v) := by
  refine ⟨?_, fun b => ?_, heapKept_two s a (a + 1) _ _ (by simp) (by simp)⟩
  · rw [State.core_setCore, State.setCore_heap, ← State.writeWord_eq]
  · rw [State.readByte_setCore _ _ (by rw [State.core_writeWord, hl]) (by rw [State.core_writeWord, ho])]
    exact readByte_write_low_high s a _ _ b

/-! ### The stack -/

theorem sub_two (w : Word) : w - 1 - 1 = w - 2 := by
  rw [BitVec.sub_sub]; rfl

theorem sub_two_add_one (w : Word) : w - 2 + 1 = w - 1 := by
  rw [← sub_two, BitVec.sub_add_cancel]

/-- A push moves SP down by two and stores the two bytes below it. -/
theorem State.push_eq (s : State) (v : Word) :
    s.push v = ((s.writeByte (s.core.sp - 1) (hiByte v)).writeByte (s.core.sp - 2) (loByte v)).setCore
      { s.core with sp := s.core.sp - 2 } := by
  have wm : ∀ (t : State) (f : Module → Module) (a : Word) (x : Byte), (f t.core).port7FFD = t.core.port7FFD →
      (f t.core).trdos = t.core.trdos → (t.mapCore f).writeByte a x = (t.writeByte a x).mapCore f := by
    intro t f a x hl ho
    have hb : (t.mapCore f).backing a = t.backing a := by
      simp [State.backing, Machine.backing, romImage128, romImage48, hl, ho]
    unfold State.writeByte
    rw [hb]
    split <;> rfl
  unfold State.push
  simp only [State.core_mapCore, State.core_writeByte]
  rw [wm, wm, wm]
  · simp only [State.mapCore, State.core_setCore, State.core_writeByte, State.setCore_setCore, sub_two]
  all_goals rfl

@[simp] theorem State.core_push (s : State) (v : Word) : (s.push v).core = { s.core with sp := s.core.sp - 2 } := by
  rw [State.push_eq, State.core_setCore]

theorem State.heap_wf_push {s : State} (h : s.heap.wf = true) (v : Word) : (s.push v).heap.wf = true := by
  rw [State.push_eq]; exact State.heap_wf_writeByte (State.heap_wf_writeByte h _ _) _ _

theorem State.heap_below_push {s : State} (hf : s.cfg.heapMapFits = true)
    (h : s.heap.below (s.cfg.heapBanks * 0x4000) = true) (v : Word) :
    (s.push v).heap.below (s.cfg.heapBanks * 0x4000) = true := by
  have h1 := State.heap_below_writeByte hf h (s.core.sp - 1) (hiByte v)
  have h2 := State.heap_below_writeByte (s := s.writeByte (s.core.sp - 1) (hiByte v)) (by simpa using hf)
    (by simpa using h1) (s.core.sp - 2) (loByte v)
  rw [State.push_eq, State.setCore_heap]
  simpa using h2

theorem storesTwo_push (s : State) (v : Word) (c : Module) (hl : c.port7FFD = s.core.port7FFD)
    (ho : c.trdos = s.core.trdos) :
    StoresTwo s ((s.push v).setCore c) (s.core.sp - 2) (loByte v) (hiByte v) := by
  rw [State.push_eq, State.setCore_setCore]
  refine ⟨?_, fun b => ?_, heapKept_two s _ _ _ _ (by rw [sub_two_add_one]; simp) (by simp)⟩
  · rw [State.core_setCore, State.setCore_heap]
    conv => lhs; rw [State.writeTwo_eq]
  · rw [State.readByte_setCore _ _ (by simp [hl]) (by simp [ho])]
    have := readByte_write_high_low s (s.core.sp - 2) (loByte v) (hiByte v) b
    rwa [sub_two_add_one] at this ⊢

/-- What a pop gives and leaves. -/
theorem State.pop_spec (s : State) : s.popValue = pair (s.readByte (s.core.sp + 1)) (s.readByte s.core.sp) ∧
    s.popped = s.setCore { s.core with sp := s.core.sp + 2 } := ⟨rfl, rfl⟩

/-! ### Handlers -/

/-- Taking an interrupt: the pushed PC, the handler's address, the bookkeeping (R436, R439). -/
theorem State.takeInterrupt_spec (s : State) (prepare : Module → Module) (target : State → Word) (n : Nat)
    (hp : ∀ c, (prepare c).sp = c.sp ∧ (prepare c).t = c.t ∧ (prepare c).port7FFD = c.port7FFD ∧ (prepare c).trdos = c.trdos) :
    StoresTwo s (s.takeInterrupt prepare target n) (s.core.sp - 2) (loByte s.core.pc) (hiByte s.core.pc) ∧
    EndsStep s.core (s.takeInterrupt prepare target n).core n false ∧
    (s.takeInterrupt prepare target n).core =
      (({ prepare { s.core with halted := false, r := refresh s.core.r } with
        sp := s.core.sp - 2
        pc := target ((s.mapCore fun c => prepare { c with halted := false, r := refresh c.r }).push s.core.pc)
        memptr := target ((s.mapCore fun c => prepare { c with halted := false, r := refresh c.r }).push s.core.pc) }).spend
          n).endStep 0 := by
  obtain ⟨h1, h2, h3, h4⟩ := hp { s.core with halted := false, r := refresh s.core.r }
  have hc : (s.takeInterrupt prepare target n).core =
      (({ prepare { s.core with halted := false, r := refresh s.core.r } with
        sp := s.core.sp - 2
        pc := target ((s.mapCore fun c => prepare { c with halted := false, r := refresh c.r }).push s.core.pc)
        memptr := target ((s.mapCore fun c => prepare { c with halted := false, r := refresh c.r }).push s.core.pc) }).spend
          n).endStep 0 := by
    simp [State.takeInterrupt, h1]
  refine ⟨?_, ?_, hc⟩
  · unfold State.takeInterrupt
    obtain ⟨e, r, k⟩ := storesTwo_push (s.mapCore fun c => prepare { c with halted := false, r := refresh c.r }) s.core.pc
      (((let pushed := (s.mapCore fun c => prepare { c with halted := false, r := refresh c.r }).push s.core.pc
        { pushed.core with pc := target pushed, memptr := target pushed }).spend n).endStep 0)
      (by simp) (by simp)
    have hm : ∀ b, (s.mapCore fun c => prepare { c with halted := false, r := refresh c.r }).backing b = s.backing b := by
      intro b; simp [State.backing, Machine.backing, romImage128, romImage48, h3, h4]
    simp only [State.core_mapCore, h1, isRam_congr hm, sameByte_congr hm] at e r k
    refine ⟨?_, fun b => ?_, ?_⟩
    · refine Eq.trans ?_ (e.trans ?_)
      · rfl
      · simp only [State.mapCore, State.setCore, Quad.set_set]
    · refine Eq.trans ?_ ((r b).trans ?_)
      · rfl
      · rw [State.mapCore_eq, State.readByte_setCore s _ h3 h4]
    · unfold HeapKept at k ⊢
      simp only [State.heapAddress_congr (hm _)] at k
      exact k
  · rw [hc]; simp [EndsStep, h2]

/-- The return from a handler (R384, R385). -/
theorem State.leaveHandler_spec (s : State) : s.leaveHandler =
    s.setCore { s.core with sp := s.core.sp + 2, pc := s.popValue, memptr := s.popValue, iff1 := s.core.iff2 } := by
  simp [State.leaveHandler, State.popped, State.mapCore]

/-! ### Ports -/

theorem State.portReadDone_spec (s : State) : s.portReadDone = { s with draws := s.draws + s.cfg.externals.length } := rfl

/-- The lock rule: a locked latch never changes (R94). -/
theorem lockedWrite_locked {latch : Byte} (v : Byte) (h : latch.getLsbD 5 = true) : lockedWrite latch v = latch := by
  simp [lockedWrite, h]

theorem fillFrom_length : ∀ (xs : List (BitVec 3)) (l : Nat) (v : BitVec 3), (fillFrom xs l v).length = xs.length
  | [], _, _ => rfl
  | _ :: xs, 0, v => by simp [fillFrom, fillFrom_length xs 0 v]
  | _ :: xs, l + 1, v => by simp [fillFrom, fillFrom_length xs l v]

theorem fillFrom_get : ∀ (xs : List (BitVec 3)) (l : Nat) (v : BitVec 3) (k : Nat),
    (fillFrom xs l v)[k]? = if k < xs.length ∧ l ≤ k then some v else xs[k]?
  | [], _, _, _ => by simp [fillFrom]
  | _ :: xs, 0, v, 0 => by simp [fillFrom]
  | _ :: xs, 0, v, k + 1 => by simp [fillFrom, fillFrom_get xs 0 v k]
  | _ :: xs, l + 1, v, 0 => by simp [fillFrom]
  | _ :: xs, l + 1, v, k + 1 => by simp [fillFrom, fillFrom_get xs l v k]

/-- A port write changes the stepping module's latch and the border, nothing else (R485). -/
theorem State.portWrite_frame (s : State) (port : Word) (v : Byte) (tw : Nat) :
    s.portWrite port v tw = { s.setCore { s.core with port7FFD := (s.portWrite port v tw).core.port7FFD } with
      borderCur := (s.portWrite port v tw).borderCur
      borderLine := (s.portWrite port v tw).borderLine } := by
  have hb : ∀ p x, s.bankSelect p x = s.setCore { s.core with port7FFD := (s.bankSelect p x).core.port7FFD } := by
    intro p x
    unfold State.bankSelect
    split
    · rw [State.core_mapCore]; rfl
    · exact (State.setCore_core s).symm
  have hw : ∀ (t : State) p x w, t.borderWrite p x w = { t with
      borderCur := (t.borderWrite p x w).borderCur, borderLine := (t.borderWrite p x w).borderLine } := by
    intro t p x w; unfold State.borderWrite; split <;> rfl
  have hcore : (s.portWrite port v tw).core.port7FFD = (s.bankSelect port v).core.port7FFD := by
    unfold State.portWrite; split
    · rw [hw]; rfl
    · rfl
  rw [hcore]
  conv => lhs; unfold State.portWrite
  unfold State.portWrite
  split
  · rw [hw, ← hb]
  · rw [← hb]

/-! ### The TR-DOS hook -/

/-- The decision that looks at the listed bits one after another and answers `f` of their values. -/
def HookTree.ofBits : List HookBit → (List Bool → Bool) → HookTree
  | [], f => .flag (f [])
  | b :: bs, f => .test b (HookTree.ofBits bs fun vs => f (true :: vs)) (HookTree.ofBits bs fun vs => f (false :: vs))

/-- Every function of any listed bits of the module's state and the fetch address is a hook that can be given (R10, R98). -/
theorem HookTree.ofBits_value (m : ModuleId) (c : Module) (pc : Word) : ∀ (bs : List HookBit) (f : List Bool → Bool),
    HookTree.value m c pc (HookTree.ofBits bs f) = f (bs.map (HookBit.value m c pc))
  | [], _ => rfl
  | b :: bs, f => by
    simp only [HookTree.ofBits, HookTree.value, List.map_cons, HookTree.ofBits_value m c pc bs]
    cases HookBit.value m c pc b <;> rfl

/-- What a hook leaves changes the stepping module's flag and the number of free values taken, nothing else. -/
theorem State.hooked_eq (s : State) : s.hooked =
    ({ s with draws := s.hooked.draws }).setCore { s.core with trdos := s.hooked.core.trdos } := by
  unfold State.hooked
  cases s.cfg.trdosHook with
  | identity => exact (State.setCore_core s).symm
  | given tree => rw [State.core_mapCore]; rfl
  | free => rw [State.core_drew, State.core_mapCore]; rfl

/-! ### R -/

/-- An M1 cycle keeps bit 7 of R (R46). -/
theorem refresh_bit7 (r : Byte) : (refresh r).getLsbD 7 = r.getLsbD 7 := by
  simp [refresh]

theorem refreshN_bit7 : ∀ (n : Nat) (r : Byte), (refreshN n r).getLsbD 7 = r.getLsbD 7
  | 0, _ => rfl
  | n + 1, r => by rw [refreshN, refreshN_bit7 n, refresh_bit7]

end Sys2Proof.Machine
end

