-- ==== Sys2Proof/Laws/PerInstr.lean ====
section
/-!
SUPPORT. The family `Length`: how long an instruction is and how many of its bytes M1 cycles fetch, one lemma per instruction
(R46, R121).
-/

namespace Sys2Proof.Laws.Length

/-- A well-formed instruction has 1 to 4 bytes (R121), and 1 or 2 of them are fetched by M1 cycles (R46). -/
def Statement (i : Instr) : Prop :=
  i.wellFormed = true → 1 ≤ (encode i).length ∧ (encode i).length ≤ 4 ∧ 1 ≤ Machine.m1Count i ∧
    Machine.m1Count i ≤ 2 ∧ Machine.m1Count i ≤ (encode i).length

/-- The M1 cycles of any bytes: 1 or 2, and no more than there are. -/
theorem m1_bounds (i : Instr) (h : 1 ≤ (encode i).length) :
    1 ≤ Machine.m1Count i ∧ Machine.m1Count i ≤ 2 ∧ Machine.m1Count i ≤ (encode i).length := by
  unfold Machine.m1Count
  split
  · next hb => rw [hb]; split <;> simp
  · exact ⟨Nat.le_refl 1, by decide, h⟩

/-- From the number of bytes. -/
theorem of_length {i : Instr} (h : Nat.ble 1 (encode i).length && Nat.ble (encode i).length 4) : Statement i := by
  rw [Bool.and_eq_true] at h
  exact fun _ => ⟨Nat.le_of_ble_eq_true h.1, Nat.le_of_ble_eq_true h.2, m1_bounds i (Nat.le_of_ble_eq_true h.1)⟩

/-- An unaffected instruction has at most 3 bytes (R127). -/
theorem unaffected_length : ∀ {i : Instr}, i.unaffected = true → (encode i).length ≤ 3 := by
  intro i h
  cases i <;> first | exact Nat.le_of_ble_eq_true rfl | exact absurd h Bool.false_ne_true

theorem nop : Statement (.nop) := of_length rfl

theorem ldDdNn (dd : Rp) (nn : Word) : Statement (.ldDdNn dd nn) := of_length rfl

theorem ldMBcA : Statement (.ldMBcA) := of_length rfl

theorem incSs (ss : Rp) : Statement (.incSs ss) := of_length rfl

theorem incR (r : Reg8) : Statement (.incR r) := of_length rfl

theorem decR (r : Reg8) : Statement (.decR r) := of_length rfl

theorem ldRN (r : Reg8) (n : Byte) : Statement (.ldRN r n) := of_length rfl

theorem rlca : Statement (.rlca) := of_length rfl

theorem exAfAf : Statement (.exAfAf) := of_length rfl

theorem addHlSs (ss : Rp) : Statement (.addHlSs ss) := of_length rfl

theorem ldAMBc : Statement (.ldAMBc) := of_length rfl

theorem decSs (ss : Rp) : Statement (.decSs ss) := of_length rfl

theorem rrca : Statement (.rrca) := of_length rfl

theorem djnz (e : Byte) : Statement (.djnz e) := of_length rfl

theorem ldMDeA : Statement (.ldMDeA) := of_length rfl

theorem rla : Statement (.rla) := of_length rfl

theorem jr (e : Byte) : Statement (.jr e) := of_length rfl

theorem ldAMDe : Statement (.ldAMDe) := of_length rfl

theorem rra : Statement (.rra) := of_length rfl

theorem jrCc (cc : JrCond) (e : Byte) : Statement (.jrCc cc e) := of_length rfl

theorem ldMNnHl (nn : Word) : Statement (.ldMNnHl nn) := of_length rfl

theorem daa : Statement (.daa) := of_length rfl

theorem ldHlMNn (nn : Word) : Statement (.ldHlMNn nn) := of_length rfl

theorem cpl : Statement (.cpl) := of_length rfl

theorem ldMNnA (nn : Word) : Statement (.ldMNnA nn) := of_length rfl

theorem incMHl : Statement (.incMHl) := of_length rfl

theorem decMHl : Statement (.decMHl) := of_length rfl

theorem ldMHlN (n : Byte) : Statement (.ldMHlN n) := of_length rfl

theorem scf : Statement (.scf) := of_length rfl

theorem ldAMNn (nn : Word) : Statement (.ldAMNn nn) := of_length rfl

theorem ccf : Statement (.ccf) := of_length rfl

theorem ldRR (r : Reg8) (r' : Reg8) : Statement (.ldRR r r') := of_length rfl

theorem ldRMHl (r : Reg8) : Statement (.ldRMHl r) := of_length rfl

theorem ldMHlR (r : Reg8) : Statement (.ldMHlR r) := of_length rfl

theorem halt : Statement (.halt) := of_length rfl

theorem addAR (r : Reg8) : Statement (.addAR r) := of_length rfl

theorem addAMHl : Statement (.addAMHl) := of_length rfl

theorem adcAR (r : Reg8) : Statement (.adcAR r) := of_length rfl

theorem adcAMHl : Statement (.adcAMHl) := of_length rfl

theorem subR (r : Reg8) : Statement (.subR r) := of_length rfl

theorem subMHl : Statement (.subMHl) := of_length rfl

theorem sbcAR (r : Reg8) : Statement (.sbcAR r) := of_length rfl

theorem sbcAMHl : Statement (.sbcAMHl) := of_length rfl

theorem andR (r : Reg8) : Statement (.andR r) := of_length rfl

theorem andMHl : Statement (.andMHl) := of_length rfl

theorem xorR (r : Reg8) : Statement (.xorR r) := of_length rfl

theorem xorMHl : Statement (.xorMHl) := of_length rfl

theorem orR (r : Reg8) : Statement (.orR r) := of_length rfl

theorem orMHl : Statement (.orMHl) := of_length rfl

theorem cpR (r : Reg8) : Statement (.cpR r) := of_length rfl

theorem cpMHl : Statement (.cpMHl) := of_length rfl

theorem retCc (cc : Cond) : Statement (.retCc cc) := of_length rfl

theorem popQq (qq : Rp2) : Statement (.popQq qq) := of_length rfl

theorem jpCcNn (cc : Cond) (nn : Word) : Statement (.jpCcNn cc nn) := of_length rfl

theorem jpNn (nn : Word) : Statement (.jpNn nn) := of_length rfl

theorem callCcNn (cc : Cond) (nn : Word) : Statement (.callCcNn cc nn) := of_length rfl

theorem pushQq (qq : Rp2) : Statement (.pushQq qq) := of_length rfl

theorem rst (y : BitVec 3) : Statement (.rst y) := of_length rfl

theorem ret : Statement (.ret) := of_length rfl

theorem callNn (nn : Word) : Statement (.callNn nn) := of_length rfl

theorem outNA (n : Byte) : Statement (.outNA n) := of_length rfl

theorem exx : Statement (.exx) := of_length rfl

theorem inAN (n : Byte) : Statement (.inAN n) := of_length rfl

theorem exMSpHl : Statement (.exMSpHl) := of_length rfl

theorem jpHl : Statement (.jpHl) := of_length rfl

theorem exDeHl : Statement (.exDeHl) := of_length rfl

theorem di : Statement (.di) := of_length rfl

theorem ldSpHl : Statement (.ldSpHl) := of_length rfl

theorem ei : Statement (.ei) := of_length rfl

theorem addAN (n : Byte) : Statement (.addAN n) := of_length rfl

theorem adcAN (n : Byte) : Statement (.adcAN n) := of_length rfl

theorem subN (n : Byte) : Statement (.subN n) := of_length rfl

theorem sbcAN (n : Byte) : Statement (.sbcAN n) := of_length rfl

theorem andN (n : Byte) : Statement (.andN n) := of_length rfl

theorem xorN (n : Byte) : Statement (.xorN n) := of_length rfl

theorem orN (n : Byte) : Statement (.orN n) := of_length rfl

theorem cpN (n : Byte) : Statement (.cpN n) := of_length rfl

theorem prefixCb : Statement (.prefixCb) := of_length rfl

theorem prefixDd : Statement (.prefixDd) := of_length rfl

theorem prefixEd : Statement (.prefixEd) := of_length rfl

theorem prefixFd : Statement (.prefixFd) := of_length rfl

theorem rlcR (r : Reg8) : Statement (.rlcR r) := of_length rfl

theorem rrcR (r : Reg8) : Statement (.rrcR r) := of_length rfl

theorem rlR (r : Reg8) : Statement (.rlR r) := of_length rfl

theorem rrR (r : Reg8) : Statement (.rrR r) := of_length rfl

theorem slaR (r : Reg8) : Statement (.slaR r) := of_length rfl

theorem sraR (r : Reg8) : Statement (.sraR r) := of_length rfl

theorem sllR (r : Reg8) : Statement (.sllR r) := of_length rfl

theorem srlR (r : Reg8) : Statement (.srlR r) := of_length rfl

theorem rotMHl (op : RotOp) : Statement (.rotMHl op) := of_length rfl

theorem bitR (b : BitVec 3) (r : Reg8) : Statement (.bitR b r) := of_length rfl

theorem bitMHl (b : BitVec 3) : Statement (.bitMHl b) := of_length rfl

theorem resR (b : BitVec 3) (r : Reg8) : Statement (.resR b r) := of_length rfl

theorem resMHl (b : BitVec 3) : Statement (.resMHl b) := of_length rfl

theorem setR (b : BitVec 3) (r : Reg8) : Statement (.setR b r) := of_length rfl

theorem setMHl (b : BitVec 3) : Statement (.setMHl b) := of_length rfl

theorem noni (op : Byte) : Statement (.noni op) := of_length rfl

theorem inRC (r : Reg8) : Statement (.inRC r) := of_length rfl

theorem outCR (r : Reg8) : Statement (.outCR r) := of_length rfl

theorem sbcHlSs (ss : Rp) : Statement (.sbcHlSs ss) := of_length rfl

theorem ldMNnDd (dd : Rp) (nn : Word) : Statement (.ldMNnDd dd nn) := of_length rfl

theorem neg (y : BitVec 3) : Statement (.neg y) := of_length rfl

theorem retn (y : BitVec 3) : Statement (.retn y) := of_length rfl

theorem im0 (k : BitVec 2) : Statement (.im0 k) := of_length rfl

theorem ldIA : Statement (.ldIA) := of_length rfl

theorem adcHlSs (ss : Rp) : Statement (.adcHlSs ss) := of_length rfl

theorem ldDdMNn (dd : Rp) (nn : Word) : Statement (.ldDdMNn dd nn) := of_length rfl

theorem reti : Statement (.reti) := of_length rfl

theorem ldRA : Statement (.ldRA) := of_length rfl

theorem im1 (k : BitVec 1) : Statement (.im1 k) := of_length rfl

theorem ldAI : Statement (.ldAI) := of_length rfl

theorem im2 (k : BitVec 1) : Statement (.im2 k) := of_length rfl

theorem ldAR : Statement (.ldAR) := of_length rfl

theorem rrd : Statement (.rrd) := of_length rfl

theorem rld : Statement (.rld) := of_length rfl

theorem inC : Statement (.inC) := of_length rfl

theorem outC0 : Statement (.outC0) := of_length rfl

theorem ldi : Statement (.ldi) := of_length rfl

theorem cpi : Statement (.cpi) := of_length rfl

theorem ini : Statement (.ini) := of_length rfl

theorem outi : Statement (.outi) := of_length rfl

theorem ldd : Statement (.ldd) := of_length rfl

theorem cpd : Statement (.cpd) := of_length rfl

theorem ind : Statement (.ind) := of_length rfl

theorem outd : Statement (.outd) := of_length rfl

theorem ldir : Statement (.ldir) := of_length rfl

theorem cpir : Statement (.cpir) := of_length rfl

theorem inir : Statement (.inir) := of_length rfl

theorem otir : Statement (.otir) := of_length rfl

theorem lddr : Statement (.lddr) := of_length rfl

theorem cpdr : Statement (.cpdr) := of_length rfl

theorem indr : Statement (.indr) := of_length rfl

theorem otdr : Statement (.otdr) := of_length rfl

theorem ddFd (x : IdxReg) (op : Instr) : Statement (.ddFd x op) := by
  intro h
  have h3 := unaffected_length (i := op) h
  refine ⟨Nat.succ_le_succ (Nat.zero_le _), Nat.succ_le_succ h3, m1_bounds _ (Nat.succ_le_succ (Nat.zero_le _))⟩

theorem ignoredPrefix (x : IdxReg) : Statement (.ignoredPrefix x) := of_length rfl

theorem incHalf (x : IdxReg) (h : Half) : Statement (.incHalf x h) := of_length rfl

theorem decHalf (x : IdxReg) (h : Half) : Statement (.decHalf x h) := of_length rfl

theorem ldHalfN (x : IdxReg) (h : Half) (n : Byte) : Statement (.ldHalfN x h n) := of_length rfl

theorem ldPP (x : IdxReg) (p : HReg) (p' : HReg) : Statement (.ldPP x p p') := of_length rfl

theorem addAHalf (x : IdxReg) (h : Half) : Statement (.addAHalf x h) := of_length rfl

theorem adcAHalf (x : IdxReg) (h : Half) : Statement (.adcAHalf x h) := of_length rfl

theorem subHalf (x : IdxReg) (h : Half) : Statement (.subHalf x h) := of_length rfl

theorem sbcAHalf (x : IdxReg) (h : Half) : Statement (.sbcAHalf x h) := of_length rfl

theorem andHalf (x : IdxReg) (h : Half) : Statement (.andHalf x h) := of_length rfl

theorem xorHalf (x : IdxReg) (h : Half) : Statement (.xorHalf x h) := of_length rfl

theorem orHalf (x : IdxReg) (h : Half) : Statement (.orHalf x h) := of_length rfl

theorem cpHalf (x : IdxReg) (h : Half) : Statement (.cpHalf x h) := of_length rfl

theorem addIxPp (pp : Xp) : Statement (.addIxPp pp) := of_length rfl

theorem ldIxNn (nn : Word) : Statement (.ldIxNn nn) := of_length rfl

theorem ldMNnIx (nn : Word) : Statement (.ldMNnIx nn) := of_length rfl

theorem incIx : Statement (.incIx) := of_length rfl

theorem ldIxMNn (nn : Word) : Statement (.ldIxMNn nn) := of_length rfl

theorem decIx : Statement (.decIx) := of_length rfl

theorem incMIx (d : Byte) : Statement (.incMIx d) := of_length rfl

theorem decMIx (d : Byte) : Statement (.decMIx d) := of_length rfl

theorem ldMIxN (d : Byte) (n : Byte) : Statement (.ldMIxN d n) := of_length rfl

theorem ldRMIx (r : Reg8) (d : Byte) : Statement (.ldRMIx r d) := of_length rfl

theorem ldMIxR (r : Reg8) (d : Byte) : Statement (.ldMIxR r d) := of_length rfl

theorem addAMIx (d : Byte) : Statement (.addAMIx d) := of_length rfl

theorem adcAMIx (d : Byte) : Statement (.adcAMIx d) := of_length rfl

theorem subMIx (d : Byte) : Statement (.subMIx d) := of_length rfl

theorem sbcAMIx (d : Byte) : Statement (.sbcAMIx d) := of_length rfl

theorem andMIx (d : Byte) : Statement (.andMIx d) := of_length rfl

theorem xorMIx (d : Byte) : Statement (.xorMIx d) := of_length rfl

theorem orMIx (d : Byte) : Statement (.orMIx d) := of_length rfl

theorem cpMIx (d : Byte) : Statement (.cpMIx d) := of_length rfl

theorem prefixDdCb : Statement (.prefixDdCb) := of_length rfl

theorem popIx : Statement (.popIx) := of_length rfl

theorem exMSpIx : Statement (.exMSpIx) := of_length rfl

theorem pushIx : Statement (.pushIx) := of_length rfl

theorem jpIx : Statement (.jpIx) := of_length rfl

theorem ldSpIx : Statement (.ldSpIx) := of_length rfl

theorem rotMIxR (op : RotOp) (r : Reg8) (d : Byte) : Statement (.rotMIxR op r d) := of_length rfl

theorem rotMIx (op : RotOp) (d : Byte) : Statement (.rotMIx op d) := of_length rfl

theorem bitMIx (b : BitVec 3) (z : BitVec 3) (d : Byte) : Statement (.bitMIx b z d) := of_length rfl

theorem resMIxR (b : BitVec 3) (r : Reg8) (d : Byte) : Statement (.resMIxR b r d) := of_length rfl

theorem resMIx (b : BitVec 3) (d : Byte) : Statement (.resMIx b d) := of_length rfl

theorem setMIxR (b : BitVec 3) (r : Reg8) (d : Byte) : Statement (.setMIxR b r d) := of_length rfl

theorem setMIx (b : BitVec 3) (d : Byte) : Statement (.setMIx b d) := of_length rfl

theorem addIyPp (pp : Xp) : Statement (.addIyPp pp) := of_length rfl

theorem ldIyNn (nn : Word) : Statement (.ldIyNn nn) := of_length rfl

theorem ldMNnIy (nn : Word) : Statement (.ldMNnIy nn) := of_length rfl

theorem incIy : Statement (.incIy) := of_length rfl

theorem ldIyMNn (nn : Word) : Statement (.ldIyMNn nn) := of_length rfl

theorem decIy : Statement (.decIy) := of_length rfl

theorem incMIy (d : Byte) : Statement (.incMIy d) := of_length rfl

theorem decMIy (d : Byte) : Statement (.decMIy d) := of_length rfl

theorem ldMIyN (d : Byte) (n : Byte) : Statement (.ldMIyN d n) := of_length rfl

theorem ldRMIy (r : Reg8) (d : Byte) : Statement (.ldRMIy r d) := of_length rfl

theorem ldMIyR (r : Reg8) (d : Byte) : Statement (.ldMIyR r d) := of_length rfl

theorem addAMIy (d : Byte) : Statement (.addAMIy d) := of_length rfl

theorem adcAMIy (d : Byte) : Statement (.adcAMIy d) := of_length rfl

theorem subMIy (d : Byte) : Statement (.subMIy d) := of_length rfl

theorem sbcAMIy (d : Byte) : Statement (.sbcAMIy d) := of_length rfl

theorem andMIy (d : Byte) : Statement (.andMIy d) := of_length rfl

theorem xorMIy (d : Byte) : Statement (.xorMIy d) := of_length rfl

theorem orMIy (d : Byte) : Statement (.orMIy d) := of_length rfl

theorem cpMIy (d : Byte) : Statement (.cpMIy d) := of_length rfl

theorem prefixFdCb : Statement (.prefixFdCb) := of_length rfl

theorem popIy : Statement (.popIy) := of_length rfl

theorem exMSpIy : Statement (.exMSpIy) := of_length rfl

theorem pushIy : Statement (.pushIy) := of_length rfl

theorem jpIy : Statement (.jpIy) := of_length rfl

theorem ldSpIy : Statement (.ldSpIy) := of_length rfl

theorem rotMIyR (op : RotOp) (r : Reg8) (d : Byte) : Statement (.rotMIyR op r d) := of_length rfl

theorem rotMIy (op : RotOp) (d : Byte) : Statement (.rotMIy op d) := of_length rfl

theorem bitMIy (b : BitVec 3) (z : BitVec 3) (d : Byte) : Statement (.bitMIy b z d) := of_length rfl

theorem resMIyR (b : BitVec 3) (r : Reg8) (d : Byte) : Statement (.resMIyR b r d) := of_length rfl

theorem resMIy (b : BitVec 3) (d : Byte) : Statement (.resMIy b d) := of_length rfl

theorem setMIyR (b : BitVec 3) (r : Reg8) (d : Byte) : Statement (.setMIyR b r d) := of_length rfl

theorem setMIy (b : BitVec 3) (d : Byte) : Statement (.setMIy b d) := of_length rfl

end Sys2Proof.Laws.Length
end

