-- ==== Sys2Proof/Tests/Slice0.lean ====
section
/-!
SUPPORT. The model's own tests: ill-formed terms, words written out from the encodings, one-step vectors of
95_test_vectors.md, and the witnesses of the statements' hypotheses.
-/

namespace Sys2Proof.Tests

open Sys2Proof Sys2Proof.Machine

/-! ### Terms that are no instruction, refused by each check of WellFormed -/

theorem test_wellFormed_noni : (Instr.noni 0x44).wellFormed = false ∧ (Instr.noni 0x77).wellFormed = true := by decide

theorem test_wellFormed_retn : (Instr.retn 1).wellFormed = false ∧ (Instr.retn 0).wellFormed = true := by decide

theorem test_wellFormed_ldPP : (Instr.ldPP .ix .b .c).wellFormed = false ∧ (Instr.ldPP .ix .xh .c).wellFormed = true := by decide

theorem test_wellFormed_ddFd : (Instr.ddFd .ix (.addHlSs .bc)).wellFormed = false ∧
    (Instr.ddFd .ix .prefixCb).wellFormed = false ∧ (Instr.ddFd .iy .nop).wellFormed = true := by decide

/-! ### Words written out bit by bit from the encodings, one for each table or more -/

/-- R126: LD r,r' is 01 rrr sss: A is 111, (HL) would be 110, H is 100. -/
theorem test_word_ldRR : decode [0b01111100] = some (.ldRR .a .h, []) := rfl
/-- R126: LD r,(HL) is 01 rrr 110. -/
theorem test_word_ldRMHl : decode [0b01010110] = some (.ldRMHl .d, []) := rfl
/-- R126: 01 110 110 is HALT. -/
theorem test_word_halt : decode [0b01110110] = some (.halt, []) := rfl
/-- R126: LD dd,nn is 00 dd0 001, SP is 11, the low byte first. -/
theorem test_word_ldDdNn : decode [0b00110001, 0x34, 0x12] = some (.ldDdNn .sp 0x1234, []) := rfl
/-- R126: PUSH qq is 11 qq0 101, AF is 11. -/
theorem test_word_push : decode [0b11110101] = some (.pushQq .af, []) := rfl
/-- R126: EX DE,HL is 11 101 011. -/
theorem test_word_exDeHl : decode [0b11101011] = some (.exDeHl, []) := rfl
/-- R126: CP r is 10 111 rrr, E is 011. -/
theorem test_word_cp : decode [0b10111011] = some (.cpR .e, []) := rfl
/-- R126: DAA is 00 100 111. -/
theorem test_word_daa : decode [0b00100111] = some (.daa, []) := rfl
/-- R126: ADD HL,ss is 00 ss1 001, HL is 10. -/
theorem test_word_addHl : decode [0b00101001] = some (.addHlSs .hl, []) := rfl
/-- R126: RRA is 00 011 111. -/
theorem test_word_rra : decode [0b00011111] = some (.rra, []) := rfl
/-- R127: rot[y] r is CB 00 yyy rrr, SRL is 111. -/
theorem test_word_srl : decode [0xCB, 0b00111101] = some (.srlR .l, []) := rfl
/-- R127: RES b,(HL) is CB 10 bbb 110. -/
theorem test_word_res : decode [0xCB, 0b10011110] = some (.resMHl 3, []) := rfl
/-- R126: JR cc,e is 00 1cc 000, NC is 10. -/
theorem test_word_jr : decode [0b00110000, 0xFE] = some (.jrCc .nc 0xFE, []) := rfl
/-- R126: CALL cc,nn is 11 ccc 100, M is 111. -/
theorem test_word_call : decode [0b11111100, 0xCD, 0xAB] = some (.callCcNn .m 0xABCD, []) := rfl
/-- R129: IN r,(C) is ED 01 rrr 000, and rrr = 110 writes no register. -/
theorem test_word_in : (decode [0xED, 0b01011000], decode [0xED, 0b01110000]) = (some (.inRC .e, []), some (.inC, [])) := rfl
/-- R129: IM 2 is ED 01 y 110 with y = 011 and 111; RETI is y = 001 of 01 y 101. -/
theorem test_word_im2 : (decode [0xED, 0b01011110], decode [0xED, 0b01111110], decode [0xED, 0b01001101]) =
    (some (.im2 0, []), some (.im2 1, []), some (.reti, [])) := rfl
/-- R128: DD LD IXL,IXH is DD 01 101 100. -/
theorem test_word_ldPP : decode [0xDD, 0b01101100] = some (.ldPP .ix .xl .xh, []) := rfl
/-- R128: FD CB d 11 bbb rrr copies the result of SET to a register. -/
theorem test_word_setCopy : decode [0xFD, 0xCB, 0x7F, 0b11110010] = some (.setMIyR 6 .d 0x7F, []) := rfl
/-- R285: a DD byte before ED is an ignored prefix of one byte. -/
theorem test_word_ignored : decode [0xDD, 0xED, 0x44] = some (.ignoredPrefix .ix, [0xED, 0x44]) := rfl
/-- The table's numbering (log entry 12): the row of LD (IX+d),n. -/
theorem test_decodeTableWord : decodeTableWord 8 0x78 = some (.ldRR .a .b) := rfl

/-! ### One step: vectors of 95_test_vectors.md -/

/-- The core vectors' board (95_test_vectors.md, Conventions): the flat bus, the bytes at PC, other bytes by address, and module 0 as
given from its reset values with PC 8000. -/
def flat (g : Config) (bytes : List Byte) (others : List (Word × Byte)) (f : Module → Module) : State :=
  let c := f { Module.zero with pc := 0x8000 }
  let s := { State.reset with cfg := { g with machineMap := .flatBus }, mods := State.reset.mods.set .m0 c }
  others.foldl (fun s p => s.loadByte p.1 p.2) (s.loadBytes c.pc bytes)

/-- What one core step leaves, as seen by `see`. -/
def after {α : Type} (int : Bool) (s : State) (see : State → α) : Option α :=
  match coreStep int s with
  | .next t => some (see t)
  | _ => none

/-- 95_test_vectors.md V1.1 (R150). -/
theorem test_v1_1 : after false (flat Config.default [0x78] [] fun c => { c with b := 0x5A })
    (fun t => ([t.core.a, t.core.r], [t.core.pc], t.core.t)) =
    some ([0x5A, 0x01], [0x8001], 4) := by decide

/-- 95_test_vectors.md V1.2 (R151). -/
theorem test_v1_2 : after false (flat Config.default [0x3E, 0x42] [] fun c => c)
    (fun t => ([t.core.a, t.core.r], [t.core.pc], t.core.t)) =
    some ([0x42, 0x01], [0x8002], 7) := by decide

/-- 95_test_vectors.md V1.3 (R152). -/
theorem test_v1_3 : after false (flat Config.default [0x7E] [(0x9000, 0x11)] fun c => { c with h := 0x90, l := 0x00 })
    (fun t => ([t.core.a, t.core.r], [t.core.pc], t.core.t)) =
    some ([0x11, 0x01], [0x8001], 7) := by decide

/-- 95_test_vectors.md V1.4 (R153). -/
theorem test_v1_4 : after false (flat Config.default [0xDD, 0x46, 0xFE] [(0x9000, 0x33)] fun c => { c with ix := 0x9002 })
    (fun t => ([t.core.b, t.core.r], [t.core.pc, t.core.memptr], t.core.t)) =
    some ([0x33, 0x02], [0x8003, 0x9000], 19) := by decide

/-- 95_test_vectors.md V1.5 (R155). -/
theorem test_v1_5 : after false (flat Config.default [0xFD, 0x77, 0x7F] [] fun c => { c with iy := 0xFFF0, a := 0x99 })
    (fun t => ([t.core.r, t.readByte 0x006F], [t.core.pc, t.core.memptr], t.core.t)) =
    some ([0x02, 0x99], [0x8003, 0x006F], 19) := by decide

/-- 95_test_vectors.md V1.6 (R157). -/
theorem test_v1_6 : after false (flat Config.default [0xDD, 0x36, 0xFF, 0x07] [] fun c => { c with ix := 0x9001 })
    (fun t => ([t.core.r, t.readByte 0x9000], [t.core.pc, t.core.memptr], t.core.t)) =
    some ([0x02, 0x07], [0x8004, 0x9000], 19) := by decide

/-- 95_test_vectors.md V1.7 (R161). -/
theorem test_v1_7 : after false (flat Config.default [0x02] [] fun c => { c with b := 0x90, c := 0xFF, a := 0x12 })
    (fun t => ([t.core.r, t.readByte 0x90FF], [t.core.pc, t.core.memptr], t.core.t)) =
    some ([0x01, 0x12], [0x8001, 0x1200], 7) := by decide

/-- 95_test_vectors.md V1.8 (R163). -/
theorem test_v1_8 : after false (flat Config.default [0x32, 0xFF, 0xFF] [] fun c => { c with a := 0x77 })
    (fun t => ([t.core.r, t.readByte 0xFFFF], [t.core.pc, t.core.memptr], t.core.t)) =
    some ([0x01, 0x77], [0x8003, 0x7700], 13) := by decide

/-- 95_test_vectors.md V1.9 (R164). -/
theorem test_v1_9 : after false (flat Config.default [0xED, 0x57] [] fun c => { c with i := 0x80, iff2 := true, f := 0x01 })
    (fun t => ([t.core.a, t.core.f, t.core.r, t.core.q], [t.core.pc], t.core.t)) =
    some ([0x80, 0x85, 0x02, 0x85], [0x8002], 9) := by decide

/-- 95_test_vectors.md V1.10 (R165). -/
theorem test_v1_10 : after false (flat Config.default [0xED, 0x5F] [] fun c => { c with r := 0x7F, iff2 := false })
    (fun t => ([t.core.a, t.core.r], [t.core.pc], t.core.t)) =
    some ([0x01, 0x01], [0x8002], 9) := by decide

/-- 95_test_vectors.md V1.11 (R167). -/
theorem test_v1_11 : after false (flat Config.default [0xED, 0x4F] [] fun c => { c with a := 0x80 })
    (fun t => ([t.core.r], [t.core.pc], t.core.t)) =
    some ([0x80], [0x8002], 9) := by decide

/-- 95_test_vectors.md V1.12 (R168). -/
theorem test_v1_12 : after false (flat Config.default [0xDD, 0x65] [] fun c => { c with ix := 0x1234 })
    (fun t => ([t.core.r], [t.core.ix, t.core.pc], t.core.t)) =
    some ([0x02], [0x3434, 0x8002], 8) := by decide

/-- 95_test_vectors.md V1.13 (R169). -/
theorem test_v1_13 : after false (flat Config.default [0xFD, 0x2E, 0x56] [] fun c => { c with iy := 0x1234 })
    (fun t => ([t.core.r], [t.core.iy, t.core.pc], t.core.t)) =
    some ([0x02], [0x1256, 0x8003], 11) := by decide

/-- 95_test_vectors.md V2.1 (R180). -/
theorem test_v2_1 : after false (flat Config.default [0x01, 0x34, 0x12] [] fun c => c)
    (fun t => ([t.core.b, t.core.c, t.core.r], [t.core.pc], t.core.t)) =
    some ([0x12, 0x34, 0x01], [0x8003], 10) := by decide

/-- 95_test_vectors.md V2.2 (R182). -/
theorem test_v2_2 : after false (flat Config.default [0x2A, 0x00, 0x90] [(0x9000, 0xCD), (0x9001, 0xAB)] fun c => c)
    (fun t => ([t.core.h, t.core.l, t.core.r], [t.core.pc, t.core.memptr], t.core.t)) =
    some ([0xAB, 0xCD, 0x01], [0x8003, 0x9001], 16) := by decide

/-- 95_test_vectors.md V2.3 (R186). -/
theorem test_v2_3 : after false (flat Config.default [0xED, 0x73, 0xFF, 0xFF] [] fun c => { c with sp := 0x1234 })
    (fun t => ([t.core.r, t.readByte 0x0000, t.readByte 0xFFFF], [t.core.pc], t.core.t)) =
    some ([0x02, 0x12, 0x34], [0x8004], 20) := by decide

/-- 95_test_vectors.md V2.4 (R187). -/
theorem test_v2_4 : after false (flat Config.default [0xDD, 0x22, 0x00, 0x90] [] fun c => { c with ix := 0xBEEF })
    (fun t => ([t.core.r, t.readByte 0x9000, t.readByte 0x9001], [t.core.pc, t.core.memptr], t.core.t)) =
    some ([0x02, 0xEF, 0xBE], [0x8004, 0x9001], 20) := by decide

/-- 95_test_vectors.md V2.5 (R188). -/
theorem test_v2_5 : after false (flat Config.default [0xF9] [] fun c => { c with h := 0x12, l := 0x34 })
    (fun t => ([t.core.r], [t.core.sp, t.core.pc], t.core.t)) =
    some ([0x01], [0x1234, 0x8001], 6) := by decide

/-- 95_test_vectors.md V2.6 (R190). -/
theorem test_v2_6 : after false (flat Config.default [0xC5] [] fun c => { c with b := 0x12, c := 0x34, sp := 0x0000 })
    (fun t => ([t.core.r, t.readByte 0xFFFE, t.readByte 0xFFFF], [t.core.sp, t.core.pc], t.core.t)) =
    some ([0x01, 0x34, 0x12], [0xFFFE, 0x8001], 11) := by decide

/-- 95_test_vectors.md V2.7 (R192). -/
theorem test_v2_7 : after false (flat Config.default [0xF1] [(0x9000, 0xD7), (0x9001, 0x55)] fun c => { c with sp := 0x9000 })
    (fun t => ([t.core.a, t.core.f, t.core.r], [t.core.sp, t.core.pc], t.core.t)) =
    some ([0x55, 0xD7, 0x01], [0x9002, 0x8001], 10) := by decide

/-- 95_test_vectors.md V2.8 (R193). -/
theorem test_v2_8 : after false (flat Config.default [0xFD, 0xE1] [(0xFFFF, 0x11), (0x0000, 0x22)] fun c => { c with sp := 0xFFFF })
    (fun t => ([t.core.r], [t.core.iy, t.core.sp, t.core.pc], t.core.t)) =
    some ([0x02], [0x2211, 0x0001, 0x8002], 14) := by decide

/-- 95_test_vectors.md V3.1 (R211). -/
theorem test_v3_1 : after false (flat Config.default [0x08] [] fun c => { c with a := 0x01, f := 0x02, a' := 0x03, f' := 0x04 })
    (fun t => ([t.core.a, t.core.f, t.core.r, t.core.a', t.core.f'], [t.core.pc], t.core.t)) =
    some ([0x03, 0x04, 0x01, 0x01, 0x02], [0x8001], 4) := by decide

/-- 95_test_vectors.md V3.2 (R212). -/
theorem test_v3_2 : after false (flat Config.default [0xD9] [] fun c => { c with b := 0x11, c := 0x11, b' := 0x22, c' := 0x22 })
    (fun t => ([t.core.b, t.core.c, t.core.r, t.core.b', t.core.c'], [t.core.pc], t.core.t)) =
    some ([0x22, 0x22, 0x01, 0x11, 0x11], [0x8001], 4) := by decide

/-- 95_test_vectors.md V3.3 (R213). -/
theorem test_v3_3 : after false (flat Config.default [0xE3] [(0x9000, 0x78), (0x9001, 0x56)] fun c => { c with h := 0x12, l := 0x34, sp := 0x9000 })
    (fun t => ([t.core.h, t.core.l, t.core.r, t.readByte 0x9000, t.readByte 0x9001], [t.core.pc, t.core.memptr], t.core.t)) =
    some ([0x56, 0x78, 0x01, 0x34, 0x12], [0x8001, 0x5678], 19) := by decide

/-- 95_test_vectors.md V3.4 (R215). -/
theorem test_v3_4 : after false (flat Config.default [0xED, 0xA0] [(0x9000, 0x0A)] fun c => { c with h := 0x90, l := 0x00, d := 0xA0, e := 0x00, b := 0x00, c := 0x01, a := 0x00 })
    (fun t => ([t.core.f, t.core.c, t.core.e, t.core.l, t.core.r, t.core.q, t.readByte 0xA000], [t.core.pc], t.core.t)) =
    some ([0x28, 0x00, 0x01, 0x01, 0x02, 0x28, 0x0A], [0x8002], 16) := by decide

/-- 95_test_vectors.md V3.8 (R219). -/
theorem test_v3_8 : after false (flat Config.default [0xED, 0xA1] [(0x9000, 0x10)] fun c => { c with h := 0x90, l := 0x00, b := 0x00, c := 0x01, a := 0x10 })
    (fun t => ([t.core.f, t.core.c, t.core.l, t.core.r, t.core.q], [t.core.pc, t.core.memptr], t.core.t)) =
    some ([0x42, 0x00, 0x01, 0x02, 0x42], [0x8002, 0x0001], 16) := by decide

/-- 95_test_vectors.md V3.11 (R221). -/
theorem test_v3_11 : after false (flat Config.default [0xED, 0xA9] [(0x9000, 0x01)] fun c => { c with h := 0x90, l := 0x00, b := 0x00, c := 0x02, a := 0x00 })
    (fun t => ([t.core.f, t.core.c, t.core.h, t.core.l, t.core.r, t.core.q], [t.core.pc, t.core.memptr], t.core.t)) =
    some ([0xBE, 0x01, 0x8F, 0xFF, 0x02, 0xBE], [0x8002, 0xFFFF], 16) := by decide

/-- 95_test_vectors.md V3.12 (R216). -/
theorem test_v3_12 : after false (flat { Config.default with blockRepeatXy := .pcHigh } [0xED, 0xB0] [(0x9000, 0x08)] fun c => { c with h := 0x90, l := 0x00, d := 0xA0, e := 0x00, b := 0x00, c := 0x02, a := 0x00 })
    (fun t => ([t.core.f, t.core.c, t.core.e, t.core.l, t.core.r, t.core.q, t.readByte 0xA000], [t.core.memptr], t.core.t)) =
    some ([0x04, 0x01, 0x01, 0x01, 0x02, 0x04, 0x08], [0x8001], 21) := by decide

/-- 95_test_vectors.md V4.1 (R243, R241). -/
theorem test_v4_1 : after false (flat Config.default [0x80] [] fun c => { c with a := 0x7F, b := 0x01 })
    (fun t => ([t.core.a, t.core.f, t.core.r, t.core.q], [t.core.pc], t.core.t)) =
    some ([0x80, 0x94, 0x01, 0x94], [0x8001], 4) := by decide

/-- 95_test_vectors.md V4.2 (R243). -/
theorem test_v4_2 : after false (flat Config.default [0xC6, 0x01] [] fun c => { c with a := 0xFF })
    (fun t => ([t.core.a, t.core.f, t.core.r, t.core.q], [t.core.pc], t.core.t)) =
    some ([0x00, 0x51, 0x01, 0x51], [0x8002], 7) := by decide

/-- 95_test_vectors.md V4.3 (R244). -/
theorem test_v4_3 : after false (flat Config.default [0x8F] [] fun c => { c with a := 0x80, f := 0x01 })
    (fun t => ([t.core.a, t.core.f, t.core.r, t.core.q], [t.core.pc], t.core.t)) =
    some ([0x01, 0x05, 0x01, 0x05], [0x8001], 4) := by decide

/-- 95_test_vectors.md V4.4 (R245). -/
theorem test_v4_4 : after false (flat Config.default [0x90] [] fun c => { c with a := 0x00, b := 0x01 })
    (fun t => ([t.core.a, t.core.f, t.core.r, t.core.q], [t.core.pc], t.core.t)) =
    some ([0xFF, 0xBB, 0x01, 0xBB], [0x8001], 4) := by decide

/-- 95_test_vectors.md V4.6 (R246). -/
theorem test_v4_6 : after false (flat Config.default [0x9F] [] fun c => { c with a := 0x00, f := 0x01 })
    (fun t => ([t.core.a, t.core.f, t.core.r, t.core.q], [t.core.pc], t.core.t)) =
    some ([0xFF, 0xBB, 0x01, 0xBB], [0x8001], 4) := by decide

/-- 95_test_vectors.md V4.7 (R247, R242). -/
theorem test_v4_7 : after false (flat Config.default [0xE6, 0x0F] [] fun c => { c with a := 0xF0 })
    (fun t => ([t.core.a, t.core.f, t.core.r, t.core.q], [t.core.pc], t.core.t)) =
    some ([0x00, 0x54, 0x01, 0x54], [0x8002], 7) := by decide

/-- 95_test_vectors.md V4.8 (R248). -/
theorem test_v4_8 : after false (flat Config.default [0xAF] [] fun c => { c with a := 0x5A, f := 0xFF })
    (fun t => ([t.core.a, t.core.f, t.core.r, t.core.q], [t.core.pc], t.core.t)) =
    some ([0x00, 0x44, 0x01, 0x44], [0x8001], 4) := by decide

/-- 95_test_vectors.md V4.9 (R249). -/
theorem test_v4_9 : after false (flat Config.default [0xF6, 0x28] [] fun c => { c with a := 0x00 })
    (fun t => ([t.core.a, t.core.f, t.core.r, t.core.q], [t.core.pc], t.core.t)) =
    some ([0x28, 0x2C, 0x01, 0x2C], [0x8002], 7) := by decide

/-- 95_test_vectors.md V4.10 (R250). -/
theorem test_v4_10 : after false (flat Config.default [0xFE, 0x28] [] fun c => { c with a := 0x00 })
    (fun t => ([t.core.f, t.core.r, t.core.q], [t.core.pc], t.core.t)) =
    some ([0xBB, 0x01, 0xBB], [0x8002], 7) := by decide

/-- 95_test_vectors.md V4.12 (R243, R240). -/
theorem test_v4_12 : after false (flat Config.default [0xDD, 0x86, 0x80] [(0x9000, 0x0F)] fun c => { c with a := 0x01, ix := 0x9080 })
    (fun t => ([t.core.a, t.core.f, t.core.r, t.core.q], [t.core.pc, t.core.memptr], t.core.t)) =
    some ([0x10, 0x10, 0x02, 0x10], [0x8003, 0x9000], 19) := by decide

/-- 95_test_vectors.md V4.13 (R251). -/
theorem test_v4_13 : after false (flat Config.default [0x3C] [] fun c => { c with a := 0x7F, f := 0x01 })
    (fun t => ([t.core.a, t.core.f, t.core.r, t.core.q], [t.core.pc], t.core.t)) =
    some ([0x80, 0x95, 0x01, 0x95], [0x8001], 4) := by decide

/-- 95_test_vectors.md V4.14 (R254). -/
theorem test_v4_14 : after false (flat Config.default [0x3D] [] fun c => { c with a := 0x80 })
    (fun t => ([t.core.a, t.core.f, t.core.r, t.core.q], [t.core.pc], t.core.t)) =
    some ([0x7F, 0x3E, 0x01, 0x3E], [0x8001], 4) := by decide

/-- 95_test_vectors.md V4.16 (R252). -/
theorem test_v4_16 : after false (flat Config.default [0x34] [(0x9000, 0xFF)] fun c => { c with h := 0x90, l := 0x00 })
    (fun t => ([t.core.f, t.core.r, t.core.q, t.readByte 0x9000], [t.core.pc], t.core.t)) =
    some ([0x50, 0x01, 0x50, 0x00], [0x8001], 11) := by decide

/-- 95_test_vectors.md V4.17 (R256). -/
theorem test_v4_17 : after false (flat Config.default [0xFD, 0x35, 0x01] [(0x9000, 0x01)] fun c => { c with iy := 0x8FFF })
    (fun t => ([t.core.f, t.core.r, t.core.q, t.readByte 0x9000], [t.core.pc, t.core.memptr], t.core.t)) =
    some ([0x42, 0x02, 0x42, 0x00], [0x8003, 0x9000], 23) := by decide

/-- 95_test_vectors.md V4.18 (R243, R240). -/
theorem test_v4_18 : after false (flat Config.default [0xDD, 0x84] [] fun c => { c with a := 0x01, ix := 0x7F00 })
    (fun t => ([t.core.a, t.core.f, t.core.r, t.core.q], [t.core.pc], t.core.t)) =
    some ([0x80, 0x94, 0x02, 0x94], [0x8002], 8) := by decide

/-- 95_test_vectors.md V5.1 (R270). -/
theorem test_v5_1 : after false (flat Config.default [0x27] [] fun c => { c with a := 0x9A, f := 0x00 })
    (fun t => ([t.core.a, t.core.f, t.core.r, t.core.q], [t.core.pc], t.core.t)) =
    some ([0x00, 0x55, 0x01, 0x55], [0x8001], 4) := by decide

/-- 95_test_vectors.md V5.2 (R270). -/
theorem test_v5_2 : after false (flat Config.default [0x27] [] fun c => { c with a := 0x15, f := 0x12 })
    (fun t => ([t.core.a, t.core.f, t.core.r, t.core.q], [t.core.pc], t.core.t)) =
    some ([0x0F, 0x1E, 0x01, 0x1E], [0x8001], 4) := by decide

/-- 95_test_vectors.md V5.5 (R271). -/
theorem test_v5_5 : after false (flat Config.default [0x2F] [] fun c => { c with a := 0x5A })
    (fun t => ([t.core.a, t.core.f, t.core.r, t.core.q], [t.core.pc], t.core.t)) =
    some ([0xA5, 0x32, 0x01, 0x32], [0x8001], 4) := by decide

/-- 95_test_vectors.md V5.6 (R272). -/
theorem test_v5_6 : after false (flat Config.default [0xED, 0x44] [] fun c => { c with a := 0x80 })
    (fun t => ([t.core.f, t.core.r, t.core.q], [t.core.pc], t.core.t)) =
    some ([0x87, 0x02, 0x87], [0x8002], 8) := by decide

/-- 95_test_vectors.md V5.9 (R274, R282). -/
theorem test_v5_9 : after false (flat Config.default [0x37] [] fun c => { c with a := 0x28, f := 0x00 })
    (fun t => ([t.core.f, t.core.r, t.core.q], [t.core.pc], t.core.t)) =
    some ([0x29, 0x01, 0x29], [0x8001], 4) := by decide

/-- 95_test_vectors.md V5.11 (R273). -/
theorem test_v5_11 : after false (flat Config.default [0x3F] [] fun c => { c with f := 0x01 })
    (fun t => ([t.core.f, t.core.r, t.core.q], [t.core.pc], t.core.t)) =
    some ([0x10, 0x01, 0x10], [0x8001], 4) := by decide

/-- 95_test_vectors.md V5.12 (R275). -/
theorem test_v5_12 : after false (flat Config.default [0x00] [] fun c => { c with pc := 0x0000 })
    (fun t => ([t.core.r], [t.core.pc], t.core.t)) =
    some ([0x01], [0x0001], 4) := by decide

/-- 95_test_vectors.md V5.14 (R277). -/
theorem test_v5_14 : after false (flat Config.default [0xF3] [] fun c => { c with iff1 := true, iff2 := true })
    (fun t => ([t.core.r], [t.core.pc], [t.core.iff1, t.core.iff2], t.core.t)) =
    some ([0x01], [0x8001], [false, false], 4) := by decide

/-- 95_test_vectors.md V5.16 (R281). -/
theorem test_v5_16 : after false (flat Config.default [0xED, 0x5E] [] fun c => c)
    (fun t => ([t.core.r], [t.core.pc], [decide (t.core.im = .im2)], t.core.t)) =
    some ([0x02], [0x8002], [true], 8) := by decide

/-- 95_test_vectors.md V5.17 (R283). -/
theorem test_v5_17 : after false (flat Config.default [0xED, 0x77] [] fun c => { c with a := 0x12 })
    (fun t => ([t.core.r], [t.core.pc], t.core.t)) =
    some ([0x02], [0x8002], 8) := by decide

/-- 95_test_vectors.md V5.19 (R286). -/
theorem test_v5_19 : after false (flat Config.default [0xDD, 0x00] [] fun c => c)
    (fun t => ([t.core.r], [t.core.pc], t.core.t)) =
    some ([0x02], [0x8002], 8) := by decide

/-- 95_test_vectors.md V6.1 (R300). -/
theorem test_v6_1 : after false (flat Config.default [0x09] [] fun c => { c with h := 0x0F, l := 0xFF, b := 0x00, c := 0x01 })
    (fun t => ([t.core.f, t.core.h, t.core.l, t.core.r, t.core.q], [t.core.pc, t.core.memptr], t.core.t)) =
    some ([0x10, 0x10, 0x00, 0x01, 0x10], [0x8001, 0x1000], 11) := by decide

/-- 95_test_vectors.md V6.3 (R301). -/
theorem test_v6_3 : after false (flat Config.default [0xED, 0x4A] [] fun c => { c with h := 0x7F, l := 0xFF, b := 0x00, c := 0x00, f := 0x01 })
    (fun t => ([t.core.f, t.core.h, t.core.l, t.core.r, t.core.q], [t.core.pc, t.core.memptr], t.core.t)) =
    some ([0x94, 0x80, 0x00, 0x02, 0x94], [0x8002, 0x8000], 15) := by decide

/-- 95_test_vectors.md V6.4 (R302). -/
theorem test_v6_4 : after false (flat Config.default [0xED, 0x42] [] fun c => { c with h := 0x12, l := 0x34, b := 0x12, c := 0x34 })
    (fun t => ([t.core.f, t.core.h, t.core.l, t.core.r, t.core.q], [t.core.pc, t.core.memptr], t.core.t)) =
    some ([0x42, 0x00, 0x00, 0x02, 0x42], [0x8002, 0x1235], 15) := by decide

/-- 95_test_vectors.md V6.5 (R302). -/
theorem test_v6_5 : after false (flat Config.default [0xED, 0x52] [] fun c => { c with h := 0x00, l := 0x00, d := 0x00, e := 0x01 })
    (fun t => ([t.core.f, t.core.h, t.core.l, t.core.r, t.core.q], [t.core.pc, t.core.memptr], t.core.t)) =
    some ([0xBB, 0xFF, 0xFF, 0x02, 0xBB], [0x8002, 0x0001], 15) := by decide

/-- 95_test_vectors.md V6.6 (R303). -/
theorem test_v6_6 : after false (flat Config.default [0xDD, 0x39] [] fun c => { c with ix := 0xFFFF, sp := 0x0001 })
    (fun t => ([t.core.f, t.core.r, t.core.q], [t.core.ix, t.core.pc], t.core.t)) =
    some ([0x11, 0x02, 0x11], [0x0000, 0x8002], 15) := by decide

/-- 95_test_vectors.md V6.7 (R304). -/
theorem test_v6_7 : after false (flat Config.default [0x03] [] fun c => { c with b := 0xFF, c := 0xFF, f := 0xFF })
    (fun t => ([t.core.b, t.core.c, t.core.r], [t.core.pc], t.core.t)) =
    some ([0x00, 0x00, 0x01], [0x8001], 6) := by decide

/-- 95_test_vectors.md V6.8 (R307). -/
theorem test_v6_8 : after false (flat Config.default [0xFD, 0x2B] [] fun c => { c with iy := 0x0000 })
    (fun t => ([t.core.r], [t.core.iy, t.core.pc], t.core.t)) =
    some ([0x02], [0xFFFF, 0x8002], 10) := by decide

/-- 95_test_vectors.md V7.1 (R320). -/
theorem test_v7_1 : after false (flat Config.default [0x07] [] fun c => { c with a := 0x81, f := 0xC4 })
    (fun t => ([t.core.a, t.core.f, t.core.r, t.core.q], [t.core.pc], t.core.t)) =
    some ([0x03, 0xC5, 0x01, 0xC5], [0x8001], 4) := by decide

/-- 95_test_vectors.md V7.4 (R322). -/
theorem test_v7_4 : after false (flat Config.default [0xCB, 0x00] [] fun c => { c with b := 0x81 })
    (fun t => ([t.core.f, t.core.b, t.core.r, t.core.q], [t.core.pc], t.core.t)) =
    some ([0x05, 0x03, 0x02, 0x05], [0x8002], 8) := by decide

/-- 95_test_vectors.md V7.9 (R323). -/
theorem test_v7_9 : after false (flat Config.default [0xCB, 0x16] [(0x9000, 0x80)] fun c => { c with h := 0x90, l := 0x00, f := 0x01 })
    (fun t => ([t.core.r, t.core.q, t.readByte 0x9000], [t.core.pc], t.core.t)) =
    some ([0x02, 0x01, 0x01], [0x8002], 15) := by decide

/-- 95_test_vectors.md V7.10 (R324). -/
theorem test_v7_10 : after false (flat Config.default [0xDD, 0xCB, 0x02, 0x3E] [(0x9002, 0x03)] fun c => { c with ix := 0x9000 })
    (fun t => ([t.core.f, t.core.r, t.core.q, t.readByte 0x9002], [t.core.pc, t.core.memptr], t.core.t)) =
    some ([0x01, 0x02, 0x01, 0x01], [0x8004, 0x9002], 23) := by decide

/-- 95_test_vectors.md V7.11 (R324). -/
theorem test_v7_11 : after false (flat Config.default [0xFD, 0xCB, 0xFF, 0x01] [(0x9000, 0x81)] fun c => { c with iy := 0x9001 })
    (fun t => ([t.core.f, t.core.c, t.core.r, t.core.q, t.readByte 0x9000], [t.core.pc, t.core.memptr], t.core.t)) =
    some ([0x05, 0x03, 0x02, 0x05, 0x03], [0x8004, 0x9000], 23) := by decide

/-- 95_test_vectors.md V7.12 (R325). -/
theorem test_v7_12 : after false (flat Config.default [0xED, 0x6F] [(0x9000, 0x31)] fun c => { c with a := 0x7A, h := 0x90, l := 0x00, f := 0x01 })
    (fun t => ([t.core.a, t.core.f, t.core.r, t.core.q, t.readByte 0x9000], [t.core.pc, t.core.memptr], t.core.t)) =
    some ([0x73, 0x21, 0x02, 0x21, 0x1A], [0x8002, 0x9001], 18) := by decide

/-- 95_test_vectors.md V7.13 (R326). -/
theorem test_v7_13 : after false (flat Config.default [0xED, 0x67] [(0x9000, 0x20)] fun c => { c with a := 0x84, h := 0x90, l := 0x00 })
    (fun t => ([t.core.a, t.core.f, t.core.r, t.core.q, t.readByte 0x9000], [t.core.pc, t.core.memptr], t.core.t)) =
    some ([0x80, 0x80, 0x02, 0x80, 0x42], [0x8002, 0x9001], 18) := by decide

/-- 95_test_vectors.md V8.1 (R350). -/
theorem test_v8_1 : after false (flat Config.default [0xCB, 0x40] [] fun c => { c with b := 0x01, f := 0x01 })
    (fun t => ([t.core.f, t.core.r, t.core.q], [t.core.pc], t.core.t)) =
    some ([0x11, 0x02, 0x11], [0x8002], 8) := by decide

/-- 95_test_vectors.md V8.5 (R351). -/
theorem test_v8_5 : after false (flat Config.default [0xCB, 0x46] [(0x9000, 0x00)] fun c => { c with h := 0x90, l := 0x00, memptr := 0x2800 })
    (fun t => ([t.core.f, t.core.r, t.core.q], [t.core.pc], t.core.t)) =
    some ([0x7C, 0x02, 0x7C], [0x8002], 12) := by decide

/-- 95_test_vectors.md V8.6 (R352). -/
theorem test_v8_6 : after false (flat Config.default [0xDD, 0xCB, 0x01, 0x7E] [(0x2900, 0x80)] fun c => { c with ix := 0x28FF })
    (fun t => ([t.core.f, t.core.r, t.core.q], [t.core.pc, t.core.memptr], t.core.t)) =
    some ([0xB8, 0x02, 0xB8], [0x8004, 0x2900], 20) := by decide

/-- 95_test_vectors.md V8.7 (R352). -/
theorem test_v8_7 : after false (flat Config.default [0xDD, 0xCB, 0x01, 0x78] [(0x2900, 0x80)] fun c => { c with ix := 0x28FF })
    (fun t => ([t.core.f, t.core.r, t.core.q], [t.core.pc, t.core.memptr], t.core.t)) =
    some ([0xB8, 0x02, 0xB8], [0x8004, 0x2900], 20) := by decide

/-- 95_test_vectors.md V8.8 (R353). -/
theorem test_v8_8 : after false (flat Config.default [0xCB, 0xD8] [] fun c => { c with f := 0xFF })
    (fun t => ([t.core.b, t.core.r], [t.core.pc], t.core.t)) =
    some ([0x08, 0x02], [0x8002], 8) := by decide

/-- 95_test_vectors.md V8.9 (R354). -/
theorem test_v8_9 : after false (flat Config.default [0xCB, 0xC6] [(0x9000, 0x10)] fun c => { c with h := 0x90, l := 0x00 })
    (fun t => ([t.core.r, t.readByte 0x9000], [t.core.pc], t.core.t)) =
    some ([0x02, 0x11], [0x8002], 15) := by decide

/-- 95_test_vectors.md V8.10 (R355). -/
theorem test_v8_10 : after false (flat Config.default [0xDD, 0xCB, 0x00, 0xCF] [(0x9000, 0x00)] fun c => { c with ix := 0x9000 })
    (fun t => ([t.core.a, t.core.r, t.readByte 0x9000], [t.core.pc, t.core.memptr], t.core.t)) =
    some ([0x02, 0x02, 0x02], [0x8004, 0x9000], 23) := by decide

/-- 95_test_vectors.md V8.11 (R356). -/
theorem test_v8_11 : after false (flat Config.default [0xCB, 0xBF] [] fun c => { c with a := 0xFF })
    (fun t => ([t.core.a, t.core.r], [t.core.pc], t.core.t)) =
    some ([0x7F, 0x02], [0x8002], 8) := by decide

/-- 95_test_vectors.md V8.12 (R358). -/
theorem test_v8_12 : after false (flat Config.default [0xFD, 0xCB, 0xFF, 0x86] [(0x9000, 0xFF)] fun c => { c with iy := 0x9001 })
    (fun t => ([t.core.r, t.readByte 0x9000], [t.core.pc, t.core.memptr], t.core.t)) =
    some ([0x02, 0xFE], [0x8004, 0x9000], 23) := by decide

/-- 95_test_vectors.md V9.1 (R371). -/
theorem test_v9_1 : after false (flat Config.default [0xC3, 0x34, 0x12] [] fun c => c)
    (fun t => ([t.core.r], [t.core.pc, t.core.memptr], t.core.t)) =
    some ([0x01], [0x1234, 0x1234], 10) := by decide

/-- 95_test_vectors.md V9.2 (R372). -/
theorem test_v9_2 : after false (flat Config.default [0xCA, 0x34, 0x12] [] fun c => { c with f := 0x00 })
    (fun t => ([t.core.r], [t.core.pc, t.core.memptr], t.core.t)) =
    some ([0x01], [0x8003, 0x1234], 10) := by decide

/-- 95_test_vectors.md V9.4 (R373). -/
theorem test_v9_4 : after false (flat Config.default [0x18, 0xFE] [] fun c => c)
    (fun t => ([t.core.r], [t.core.memptr], t.core.t)) =
    some ([0x01], [0x8000], 12) := by decide

/-- 95_test_vectors.md V9.5 (R373, R370). -/
theorem test_v9_5 : after false (flat Config.default [0x18, 0x7F] [] fun c => { c with pc := 0xFFF0 })
    (fun t => ([t.core.r], [t.core.pc, t.core.memptr], t.core.t)) =
    some ([0x01], [0x0071, 0x0071], 12) := by decide

/-- 95_test_vectors.md V9.6 (R374). -/
theorem test_v9_6 : after false (flat Config.default [0x38, 0x80] [] fun c => { c with f := 0x01 })
    (fun t => ([t.core.r], [t.core.pc, t.core.memptr], t.core.t)) =
    some ([0x01], [0x7F82, 0x7F82], 12) := by decide

/-- 95_test_vectors.md V9.8 (R375). -/
theorem test_v9_8 : after false (flat Config.default [0xE9] [] fun c => { c with h := 0x12, l := 0x34 })
    (fun t => ([t.core.r], [t.core.pc], t.core.t)) =
    some ([0x01], [0x1234], 4) := by decide

/-- 95_test_vectors.md V9.9 (R376). -/
theorem test_v9_9 : after false (flat Config.default [0xFD, 0xE9] [] fun c => { c with iy := 0x4321 })
    (fun t => ([t.core.r], [t.core.pc], t.core.t)) =
    some ([0x02], [0x4321], 8) := by decide

/-- 95_test_vectors.md V9.10 (R377). -/
theorem test_v9_10 : after false (flat Config.default [0x10, 0xFE] [] fun c => { c with b := 0x02 })
    (fun t => ([t.core.b, t.core.r], [t.core.memptr], t.core.t)) =
    some ([0x01, 0x01], [0x8000], 13) := by decide

/-- 95_test_vectors.md V9.11 (R377). -/
theorem test_v9_11 : after false (flat Config.default [0x10, 0xFE] [] fun c => { c with b := 0x01 })
    (fun t => ([t.core.b, t.core.r], [t.core.pc], t.core.t)) =
    some ([0x00, 0x01], [0x8002], 8) := by decide

/-- 95_test_vectors.md V9.13 (R378). -/
theorem test_v9_13 : after false (flat Config.default [0xCD, 0x34, 0x12] [] fun c => { c with sp := 0x9000 })
    (fun t => ([t.core.r, t.readByte 0x8FFE, t.readByte 0x8FFF], [t.core.sp, t.core.pc, t.core.memptr], t.core.t)) =
    some ([0x01, 0x03, 0x80], [0x8FFE, 0x1234, 0x1234], 17) := by decide

/-- 95_test_vectors.md V9.14 (R379). -/
theorem test_v9_14 : after false (flat Config.default [0xCC, 0x34, 0x12] [] fun c => { c with sp := 0x9000, f := 0x00 })
    (fun t => ([t.core.r], [t.core.pc, t.core.memptr], t.core.t)) =
    some ([0x01], [0x8003, 0x1234], 10) := by decide

/-- 95_test_vectors.md V9.15 (R380). -/
theorem test_v9_15 : after false (flat Config.default [0xC9] [(0x8FFE, 0x03), (0x8FFF, 0x80)] fun c => { c with sp := 0x8FFE })
    (fun t => ([t.core.r], [t.core.sp, t.core.pc, t.core.memptr], t.core.t)) =
    some ([0x01], [0x9000, 0x8003, 0x8003], 10) := by decide

/-- 95_test_vectors.md V9.16 (R381). -/
theorem test_v9_16 : after false (flat Config.default [0xC0] [] fun c => { c with sp := 0x8FFE, f := 0x40 })
    (fun t => ([t.core.r], [t.core.pc], t.core.t)) =
    some ([0x01], [0x8001], 5) := by decide

/-- 95_test_vectors.md V9.17 (R382). -/
theorem test_v9_17 : after false (flat Config.default [0xFF] [] fun c => { c with sp := 0x9000 })
    (fun t => ([t.core.r, t.readByte 0x8FFE, t.readByte 0x8FFF], [t.core.sp, t.core.pc, t.core.memptr], t.core.t)) =
    some ([0x01, 0x01, 0x80], [0x8FFE, 0x0038, 0x0038], 11) := by decide

/-- 95_test_vectors.md V9.18 (R384). -/
theorem test_v9_18 : after false (flat Config.default [0xED, 0x45] [(0x8FFE, 0x00), (0x8FFF, 0x70)] fun c => { c with sp := 0x8FFE, iff1 := false, iff2 := true })
    (fun t => ([t.core.r], [t.core.sp, t.core.pc, t.core.memptr], [t.core.iff1], t.core.t)) =
    some ([0x02], [0x9000, 0x7000, 0x7000], [true], 14) := by decide

/-- 95_test_vectors.md V9.19 (R385). -/
theorem test_v9_19 : after false (flat Config.default [0xED, 0x4D] [(0x8FFE, 0x00), (0x8FFF, 0x70)] fun c => { c with sp := 0x8FFE, iff1 := false, iff2 := true })
    (fun t => ([t.core.r], [t.core.sp, t.core.pc, t.core.memptr], [t.core.iff1, t.core.retiSeen], t.core.t)) =
    some ([0x02], [0x9000, 0x7000, 0x7000], [true, true], 14) := by decide

/-- 95_test_vectors.md V9.20 (R385). -/
theorem test_v9_20 : after false (flat Config.default [0xED, 0x5D] [(0x8FFE, 0x00), (0x8FFF, 0x70)] fun c => { c with sp := 0x8FFE, iff1 := true, iff2 := false })
    (fun t => ([t.core.r], [t.core.sp, t.core.pc, t.core.memptr], [t.core.iff1], t.core.t)) =
    some ([0x02], [0x9000, 0x7000, 0x7000], [false], 14) := by decide

/-- 95_test_vectors.md V10.1 (R400). -/
theorem test_v10_1 : after false (flat { Config.default with openBus := 0xBE, ioBlocked := [⟨.m0, .read, 0, 0⟩] } [0xDB, 0xFE] [] fun c => { c with a := 0xFD })
    (fun t => ([t.core.a, t.core.r], [t.core.pc, t.core.memptr], t.core.t)) =
    some ([0xBE, 0x01], [0x8002, 0xFDFF], 11) := by decide

/-- 95_test_vectors.md V10.2 (R401). -/
theorem test_v10_2 : after false (flat { Config.default with openBus := 0x00, ioBlocked := [⟨.m0, .read, 0, 0⟩] } [0xED, 0x78] [] fun c => { c with b := 0x12, c := 0x34, f := 0x01 })
    (fun t => ([t.core.f, t.core.r, t.core.q], [t.core.pc, t.core.memptr], t.core.t)) =
    some ([0x45, 0x02, 0x45], [0x8002, 0x1235], 12) := by decide

/-- 95_test_vectors.md V10.3 (R402). -/
theorem test_v10_3 : after false (flat { Config.default with openBus := 0x80, ioBlocked := [⟨.m0, .read, 0, 0⟩] } [0xED, 0x70] [] fun c => { c with b := 0x12, c := 0x34 })
    (fun t => ([t.core.f, t.core.r, t.core.q], [t.core.pc, t.core.memptr], t.core.t)) =
    some ([0x80, 0x02, 0x80], [0x8002, 0x1235], 12) := by decide

/-- 95_test_vectors.md V10.4 (R404, R403). -/
theorem test_v10_4 : after false (flat { Config.default with openBus := 0xF0, ioBlocked := [⟨.m0, .read, 0, 0⟩] } [0xED, 0xA2] [] fun c => { c with b := 0x01, c := 0x10, h := 0x90, l := 0x00 })
    (fun t => ([t.core.f, t.core.b, t.core.l, t.core.r, t.core.q, t.readByte 0x9000], [t.core.pc, t.core.memptr], t.core.t)) =
    some ([0x53, 0x00, 0x01, 0x02, 0x53, 0xF0], [0x8002, 0x0111], 16) := by decide

/-- 95_test_vectors.md V10.6 (R408). -/
theorem test_v10_6 : after false (flat Config.default [0xD3, 0xFE] [] fun c => { c with a := 0x02 })
    (fun t => ([t.core.r], [t.core.pc, t.core.memptr], t.core.t)) =
    some ([0x01], [0x8002, 0x02FF], 11) := by decide

/-- 95_test_vectors.md V10.8 (R409). -/
theorem test_v10_8 : after false (flat Config.default [0xED, 0x79] [] fun c => { c with b := 0x7F, c := 0xFE, a := 0x05 })
    (fun t => ([t.core.r], [t.core.pc, t.core.memptr], t.core.t)) =
    some ([0x02], [0x8002, 0x7FFF], 12) := by decide

/-- 95_test_vectors.md V10.9 (R410). -/
theorem test_v10_9 : after false (flat Config.default [0xED, 0x71] [] fun c => { c with b := 0x00, c := 0xFE })
    (fun t => ([t.core.r], [t.core.pc, t.core.memptr], t.core.t)) =
    some ([0x02], [0x8002, 0x00FF], 12) := by decide

/-- 95_test_vectors.md V10.10 (R410). -/
theorem test_v10_10 : after false (flat { Config.default with outCZero := 0xFF } [0xED, 0x71] [] fun c => { c with b := 0x00, c := 0xFE })
    (fun t => ([t.core.r], [t.core.pc, t.core.memptr], t.core.t)) =
    some ([0x02], [0x8002, 0x00FF], 12) := by decide

/-- 95_test_vectors.md V10.11 (R411, R403). -/
theorem test_v10_11 : after false (flat Config.default [0xED, 0xA3] [(0x90FF, 0x80)] fun c => { c with b := 0x01, c := 0x07, h := 0x90, l := 0xFF })
    (fun t => ([t.core.f, t.core.b, t.core.h, t.core.l, t.core.r, t.core.q], [t.core.pc, t.core.memptr], t.core.t)) =
    some ([0x46, 0x00, 0x91, 0x00, 0x02, 0x46], [0x8002, 0x0008], 16) := by decide

/-- 95_test_vectors.md V11.1 (R436, R437). -/
theorem test_v11_1 : after true (flat Config.default [0x00] [] fun c => { c with iff1 := true, iff2 := true, im := .im1, sp := 0x9000, pc := 0x8123 })
    (fun t => ([t.core.r, t.readByte 0x8FFE, t.readByte 0x8FFF], [t.core.sp, t.core.pc, t.core.memptr], [t.core.iff1, t.core.iff2], t.core.t)) =
    some ([0x01, 0x23, 0x81], [0x8FFE, 0x0038, 0x0038], [false, false], 13) := by decide

/-- 95_test_vectors.md V11.2 (R441). -/
theorem test_v11_2 : after true (flat Config.default [0x00] [] fun c => { c with iff1 := true, iff2 := true, im := .im0, sp := 0x9000, pc := 0x8123 })
    (fun t => ([t.core.r, t.readByte 0x8FFE, t.readByte 0x8FFF], [t.core.sp, t.core.pc, t.core.memptr], [t.core.iff1, t.core.iff2], t.core.t)) =
    some ([0x01, 0x23, 0x81], [0x8FFE, 0x0038, 0x0038], [false, false], 13) := by decide

/-- 95_test_vectors.md V11.3 (R441). -/
theorem test_v11_3 : after true (flat { Config.default with intAck := .fixed 215 } [0x00] [] fun c => { c with iff1 := true, iff2 := true, im := .im0, sp := 0x9000, pc := 0x8123 })
    (fun t => ([t.core.r, t.readByte 0x8FFE, t.readByte 0x8FFF], [t.core.sp, t.core.pc, t.core.memptr], [t.core.iff1, t.core.iff2], t.core.t)) =
    some ([0x01, 0x23, 0x81], [0x8FFE, 0x0010, 0x0010], [false, false], 13) := by decide

/-- 95_test_vectors.md V11.5 (R440). -/
theorem test_v11_5 : after true (flat Config.default [0x00] [(0x39FF, 0x00), (0x3A00, 0x80)] fun c => { c with iff1 := true, iff2 := true, im := .im2, sp := 0x9000, i := 0x39, pc := 0x8123 })
    (fun t => ([t.core.r, t.readByte 0x8FFE, t.readByte 0x8FFF], [t.core.sp, t.core.pc, t.core.memptr], [t.core.iff1, t.core.iff2], t.core.t)) =
    some ([0x01, 0x23, 0x81], [0x8FFE, 0x8000, 0x8000], [false, false], 19) := by decide

/-- 95_test_vectors.md V11.6 (R431). -/
theorem test_v11_6 : after true (flat Config.default [0x00] [] fun c => { c with iff1 := false, iff2 := false, im := .im1, sp := 0x9000, pc := 0x8123 })
    (fun t => ([t.core.r], [t.core.pc], t.core.t)) =
    some ([0x01], [0x8124], 4) := by decide

/-- 95_test_vectors.md V11.7 (R439). -/
theorem test_v11_7 : after false (flat Config.default [0x00] [] fun c => { c with iff1 := true, iff2 := true, sp := 0x9000, pc := 0x8123, nmiPending := true })
    (fun t => ([t.core.r, t.readByte 0x8FFE, t.readByte 0x8FFF], [t.core.sp, t.core.pc, t.core.memptr], [t.core.iff1], t.core.t)) =
    some ([0x01, 0x23, 0x81], [0x8FFE, 0x0066, 0x0066], [false], 11) := by decide

/-- 95_test_vectors.md V11.14 (R434). -/
theorem test_v11_14 : after true (flat Config.default [0x00] [] fun c => { c with iff1 := true, iff2 := true, im := .im1, sp := 0x9000, pc := 0x8123, nmiPending := true })
    (fun t => ([t.core.r, t.readByte 0x8FFE, t.readByte 0x8FFF], [t.core.sp, t.core.pc, t.core.memptr], [t.core.iff1], t.core.t)) =
    some ([0x01, 0x23, 0x81], [0x8FFE, 0x0066, 0x0066], [false], 11) := by decide

/-! ### Witnesses: what the statements assume, met by a concrete state and concrete operands -/

/-- The answer is a next state. -/
def isNext : Result → Bool
  | .next _ => true
  | _ => false

theorem next_of_isNext {o : Result} (h : isNext o = true) : ∃ t, o = .next t := by
  cases o with
  | next t => exact ⟨t, rfl⟩
  | fault x => cases h
  | refused x => cases h

theorem test_witness_decodeOfEncode_1 : (Instr.ldMIxN 0xFF 0x00).wellFormed = true ∧
    (Instr.ldMIxN 0xFF 0x00).isLonePrefix = false ∧ (Instr.ldMIxN 0xFF 0x00).isIgnoredPrefix = false := ⟨rfl, rfl, rfl⟩

theorem test_witness_decodeOfEncode_2 : cancelsPrefix 0xDD = true ∧ cancelsPrefix 0xED = true ∧ cancelsPrefix 0xFD = true ∧
    cancelsPrefix 0xCB = false := by decide

theorem test_witness_decodeOfEncode_3 : (Instr.prefixDdCb).isLonePrefix = true ∧ (Instr.prefixCb).isLonePrefix = true :=
  ⟨rfl, rfl⟩

theorem test_witness_encodeOfDecode : decode [0xDD, 0xDD, 0x21] = some (.ignoredPrefix .ix, [0xDD, 0x21]) := rfl

/-- The default board with four bytes at PC and the registers of module 0 as given. -/
def board (f : Module → Module) (bytes : List Byte) : State :=
  ({ State.reset with mods := State.reset.mods.set .m0 (f Module.zero) }).placeBytes bytes

theorem test_witness_stepRunsInstruction :
    let s := board (fun c => c) [0xDD, 0x36, 0x00, 0x07]
    s.takeInputs.resetReq = false ∧
    stepKind (s.takeInputs.opened.intLevel s.takeInputs.opened.cur) s.takeInputs.opened.core = .instruction ∧
    s.cfg.trdosHook = .identity ∧
    decode (s.takeInputs.opened.bytesAtPc 4) = some (.ldMIxN 0x00 0x07, []) :=
  ⟨rfl, by decide +kernel, rfl, by decide +kernel⟩

/-- A board whose hook sets the TR-DOS flag at fetches from odd addresses, with ROM image 0 and the TR-DOS image as given. -/
def hooking (rom0 rom2 : List Byte) : State :=
  let s := { State.reset with
    cfg := { Config.default with trdosHook := .given (.test (.address 0) (.flag true) (.flag false)) } }
  let s0 := s.loadBytes 0x0000 rom0
  let s2 := (s0.mapCore fun c => { c with trdos := true }).loadBytes 0x0000 rom2
  s2.mapCore fun c => { c with trdos := false }

/-- One witness for each clause of a fetch under a hook: no prefix; an ignored prefix; a prefix with its opcode; and a prefix whose
second byte is DD only under the flag of its own fetch (log entry 24). -/
theorem test_witness_stepRunsInstruction_hook :
    let plain := (hooking [0x3E, 0x42, 0x00] [0x00]).takeInputs.opened
    let ignored := (hooking [0xDD, 0xED] [0x00]).takeInputs.opened
    let indexed := (hooking [0xDD, 0x00, 0x00, 0x00] [0x00, 0x36, 0xFF, 0x07]).takeInputs.opened
    let flipped := (hooking [0xDD, 0x00, 0x00, 0x00] [0x00, 0xDD, 0x00, 0x00]).takeInputs.opened
    (fetchedByte plain = 0x3E ∧ decode (0x3E :: (fetchedOne plain).bytesAtPc 2) = some (.ldRN .a 0x42, [0x00])) ∧
    (fetchedByte ignored = 0xDD ∧ (fetchedOne ignored).readByte (fetchedOne ignored).core.pc = 0xED) ∧
    (fetchedByte indexed = 0xDD ∧ (fetchedOne indexed).readByte (fetchedOne indexed).core.pc = 0x00 ∧
      decode (0xDD :: fetchedByte (fetchedOne indexed) :: (fetchedOne (fetchedOne indexed)).bytesAtPc 2) =
        some (.ldMIxN 0xFF 0x07, [])) ∧
    (fetchedByte flipped = 0xDD ∧ (fetchedOne flipped).readByte (fetchedOne flipped).core.pc = 0x00 ∧
      decode (0xDD :: fetchedByte (fetchedOne flipped) :: (fetchedOne (fetchedOne flipped)).bytesAtPc 2) =
        some (.ignoredPrefix .ix, [0xDD, 0x00, 0x00])) ∧
    stepKind false plain.core = .instruction := by decide +kernel

theorem test_witness_resetIsSound : (∃ (m : ModuleId) (page : Fin 8),
      ({ Config.default with heapBanks := 31 }).heapBanks ≤ (({ Config.default with heapBanks := 31 }).heapMap.get m)[page]) ∧
    (∀ (m : ModuleId) (page : Fin 8), (Config.default.heapMap.get m)[page] < Config.default.heapBanks) :=
  ⟨⟨.m3, 7, by decide⟩, by intro m; cases m <;> decide⟩

/-- The board right after reset, with a NOP where it fetches. -/
def loaded : State := board (fun c => c) []

theorem test_witness_soundKept : loaded.sound = true ∧ ∃ t, step loaded = .next t :=
  ⟨by decide +kernel, next_of_isNext (by decide +kernel)⟩

theorem test_witness_countersKept : 23 ≤ tstatesPerFrame loaded.cfg.timing ∧ loaded.countersSound ∧
    ∃ t, step loaded = .next t :=
  ⟨by decide, ⟨⟨.m0, by decide⟩, by intro m; cases m <;> decide, by intro m n; cases m <;> cases n <;> decide⟩, next_of_isNext (by decide +kernel)⟩

theorem test_witness_exec : ∃ t, exec (.ldAR) State.reset = .next t := ⟨_, rfl⟩

theorem test_witness_endOfStepMarks : Instr.isLonePrefix .ei = false ∧ ∃ t, exec .ei State.reset = .next t := ⟨rfl, _, rfl⟩

theorem test_witness_specialRegistersKept : Instr.isLonePrefix (.ddFd .ix .exx) = false ∧
    (∃ t, exec (.ddFd .ix .exx) State.reset = .next t) ∧ bareInstr (.ddFd .ix .exx) ≠ .exAfAf ∧
    bareInstr (.ddFd .ix .halt) ≠ .exx ∧ Instr.ddFd .ix .exx ≠ .ldIA ∧ Instr.ddFd .ix .exx ≠ .ldRA :=
  ⟨rfl, ⟨_, rfl⟩, by decide, by decide, by decide, by decide⟩

theorem test_witness_modulesIsolated : ModuleId.m3 ≠ State.reset.cur ∧ ∃ t, exec .prefixCb loaded = .next t :=
  ⟨by decide, next_of_isNext rfl⟩

theorem test_witness_romAndConfigFixed : ∃ t, step loaded = .next t := next_of_isNext (by decide +kernel)

theorem test_witness_latchLocked :
    (∃ t, exec (.outNA 0xFD) (board (fun c => { c with port7FFD := 0x20 }) []) = .next t) ∧
    (board (fun c => { c with port7FFD := 0x20 }) []).core.port7FFD.getLsbD 5 = true ∧
    (flat Config.default [] [] id).cfg.machineMap ≠ .spectrum128 := ⟨⟨_, rfl⟩, rfl, by decide⟩

theorem test_witness_stepChoice :
    let nmi := board (fun c => { c with nmiPending := true }) []
    let blocked := board (fun c => { c with nmiPending := true, iff1 := true, prefixBlock := true, halted := true }) []
    let int := board (fun c => { c with iff1 := true }) []
    (nmi.core.nmiPending = true ∧ nmi.core.prefixBlock = false) ∧
    (blocked.core.prefixBlock = true ∧ blocked.core.halted = true) ∧
    (int.core.nmiPending = false ∧ int.core.iff1 = true ∧ int.core.eiDelay = false ∧ int.core.prefixBlock = false) ∧
    (State.reset.core.nmiPending = false ∧ State.reset.core.iff1 = false ∧ State.reset.core.halted = false) := by decide

theorem test_witness_nmiAccepted : let s := board (fun c => { c with nmiPending := true, eiDelay := true }) []
    s.core.nmiPending = true ∧ s.core.prefixBlock = false := ⟨rfl, rfl⟩

/-- A board about to accept an INT. -/
def interrupted (mode : IntMode) : State := board (fun c => { c with iff1 := true, im := mode, sp := 0x9000, i := 0x39 }) []

theorem test_witness_im1Accepted : IntComes true (interrupted .im1).core ∧ (interrupted .im1).core.im = .im1 :=
  ⟨⟨rfl, rfl, rfl, rfl, rfl⟩, rfl⟩

theorem test_witness_im2Accepted : IntComes true (interrupted .im2).core ∧ (interrupted .im2).core.im = .im2 :=
  ⟨⟨rfl, rfl, rfl, rfl, rfl⟩, rfl⟩

theorem test_witness_im0Accepted : IntComes true (interrupted .im0).core ∧ (interrupted .im0).core.im = .im0 ∧
    busByte (interrupted .im0) &&& 0xC7 = 0xC7 ∧
    busByte { interrupted .im0 with cfg := { Config.default with intAck := .fixed 0xBF } } &&& 0xC7 ≠ 0xC7 :=
  ⟨⟨rfl, rfl, rfl, rfl, rfl⟩, rfl, by decide, by decide⟩

theorem test_witness_im0_refuses :
    let s := interrupted .im0
    coreStep true { s with cfg := { s.cfg with intAck := .fixed 0x00 } } = .refused .im0NotRst := rfl

theorem test_witness_boundariesAfterMarks_ei : ∃ t, exec .ei State.reset = .next t ∧ t.core.nmiPending = false := ⟨_, rfl, rfl⟩

theorem test_witness_boundariesAfterMarks_ignored : ∃ t, exec (.ignoredPrefix .iy) State.reset = .next t := ⟨_, rfl⟩

theorem test_witness_boundariesAfterMarks_ldair : ∃ t, exec .ldAI (interrupted .im1) = .next t ∧ IntComes true t.core ∧
    t.cfg.ldairIffBug = true ∧ ∃ u, coreStep true t = .next u := ⟨_, rfl, ⟨rfl, rfl, rfl, rfl, rfl⟩, rfl, _, rfl⟩

theorem test_witness_haltIdles :
    let s := board (fun c => { c with halted := true }) []
    let b := board (fun c => { c with halted := true, nmiPending := true, iff1 := true, prefixBlock := true }) []
    (s.core.halted = true ∧ s.core.nmiPending = false ∧ s.core.iff1 = false) ∧
    (b.core.halted = true ∧ b.core.prefixBlock = true) := by decide

theorem test_witness_retnUndoesNmi : let s := board (fun c => { c with nmiPending := true, sp := 0x9000, iff2 := true }) []
    s.isRam (s.core.sp - 1) = true ∧ s.isRam (s.core.sp - 2) = true ∧ s.core.nmiPending = true ∧
    s.core.prefixBlock = false ∧ ∃ t, coreStep false s = .next t := ⟨rfl, rfl, rfl, rfl, _, rfl⟩

theorem test_witness_resetTaken :
    ({ State.reset with hostInputs := [[.resetRequest]] }).takeInputs.resetReq = true ∧ State.reset.cfg.resetValues = .zero :=
  ⟨rfl, rfl⟩

/-- Every slot of both maps at its first and last address: the backing of the slot as R92 and R95 give it. -/
theorem test_witness_memoryMap :
    let s := board (fun c => { c with port7FFD := 0x13 }) []
    let s48 := { s with cfg := { s.cfg with machineMap := .spectrum48 } }
    s.cfg.machineMap = .spectrum128 ∧ s48.cfg.machineMap = .spectrum48 ∧
    [0x0000, 0x3FFF, 0x4000, 0x7FFF, 0x8000, 0xBFFF, 0xC000, 0xFFFF].map s.backing =
      [.rom 1, .rom 1, .ram 5, .ram 5, .ram 2, .ram 2, .ram 3, .ram 3] ∧
    [0x0000, 0x3FFF, 0x4000, 0x7FFF, 0x8000, 0xBFFF, 0xC000, 0xFFFF].map s48.backing =
      [.rom 1, .rom 1, .ram 5, .ram 5, .ram 2, .ram 2, .ram 0, .ram 0] ∧
    (board (fun c => { c with trdos := true }) []).backing 0x3FFF = .rom 2 ∧ State.reset.backing 0x0000 = .rom 0 ∧
    (3 : Fin 8).val = s.core.port7FFD.toNat % 8 := by decide

theorem test_witness_writesSeenByAll : let s := board (fun c => { c with port7FFD := 0x05 }) []
    s.isRam 0xC000 = true ∧ (seenBy .m0 s).backing 0x4000 = s.backing 0xC000 ∧
    slotOffset 0x4000 = slotOffset 0xC000 ∧ s.isRam 0x3FFF = false := by decide +kernel

theorem test_witness_stackRoundTrip : let s := board (fun c => { c with sp := 0x0000 }) []
    s.isRam (s.core.sp - 1) = true ∧ s.isRam (s.core.sp - 2) = true := by decide

/-- The four modules' counters, in ZXPOLY. -/
def fourAt (t0 t1 t2 t3 : Nat) : State :=
  { State.reset with
    cfg := { Config.default with boardMode := .zxpoly }
    mods := ⟨{ Module.zero with t := t0 }, { Module.zero with t := t1 }, { Module.zero with t := t2 }, { Module.zero with t := t3 }⟩ }

/-- 95_test_vectors.md B3 (R452). -/
theorem test_b3_select : (fourAt 10 4 4 7).select = .m1 := by decide

theorem test_witness_selectsFurthestBehind : Config.default.boardMode = .classic ∧ isActive State.reset.cfg .m0 = true ∧
    isActive (fourAt 0 0 0 0).cfg .m3 = true ∧ moduleNo .m0 < moduleNo (fourAt 10 4 4 7).select := by decide

/-- Both ends of the INT window, and one T-state past it: 95_test_vectors.md B1 (R473). -/
theorem test_b1_window : (fourAt 0 35 36 70907).cfg.intSource = .tstate ∧
    [ModuleId.m0, .m1, .m2, .m3].map (fourAt 0 35 36 70907).intLevel = [true, true, false, false] := by decide

theorem test_witness_frameWork :
    ({ Config.default with intSource := .wallclock }).intSource = .wallclock ∧
    State.reset.frameStartPending = true ∧ State.reset.opened.frameStartPending = false ∧
    (∀ m, isActive (fourAt 70910 70908 70950 70908).cfg m = true →
      tstatesPerFrame profile128 ≤ ((fourAt 70910 70908 70950 70908).mods.get m).t) ∧
    Config.default.intSource = .tstate ∧ isActive State.reset.cfg .m3 = false ∧
    isActive (fourAt 70910 70907 70950 70908).cfg .m1 = true ∧
    ((fourAt 70910 70907 70950 70908).mods.get .m1).t < tstatesPerFrame profile128 :=
  ⟨rfl, rfl, rfl, by intro m; cases m <;> decide, rfl, rfl, rfl, by decide⟩

/-- 95_test_vectors.md B7 (R454): the counters the frame's end leaves. -/
theorem test_b7_carry : let s := (fourAt 70910 70908 70950 70908).closed
    [s.mods.m0.t, s.mods.m1.t, s.mods.m2.t, s.mods.m3.t, s.frameNo] = [2, 0, 42, 0, 1] := by decide

theorem test_witness_hostInputs : isActive State.reset.cfg .m0 = true ∧ isActive State.reset.cfg .m1 = false ∧
    State.reset.hostInputs = [] ∧ ({ State.reset with hostInputs := [[], [.wallTick]] }).hostInputs = [] :: [[.wallTick]] ∧
    ({ State.reset with hostInputs := [[.wallTick, .resetRequest]] }).hostInputs = ([.wallTick] ++ [.resetRequest]) :: [] := by
  decide

/-- R491: the events of a batch act in their order, and the next batch stays. -/
theorem test_takeInputs : let s := ({ State.reset with
      hostInputs := [[.nmiLevel true, .nmiLevel false, .joyDown 4], [.tapeLevel true]] }).takeInputs
    (s.nmiLine, s.joyLive, s.tapeIn, s.hostInputs) = (false, 0x10, false, [[.tapeLevel true]]) := by decide

/-- A board with no external device that could answer, its keys and joystick lines as visible: 'A' and SPACE pressed, joystick right and fire. -/
def keyed : State :=
  { State.reset with
    cfg := { Config.default with externals := [] }
    keysVisible := setKey (setKey KeyMatrix.released 1 0 false) 7 0 false
    joyVisible := 0x11 }

/-- 95_test_vectors.md B13 to B15, B17, B18 (R489, R490, R484). -/
theorem test_b13_to_b18 : [0x7DFE, 0x00FE, 0xFFFE, 0xFEFF, 0x001F].map keyed.portValue = [0xBE, 0xBE, 0xBF, 0xFF, 0x11] := by
  decide

/-- 95_test_vectors.md B16 (R489). -/
theorem test_b16_tape : ({ State.reset with tapeIn := true }).portValue 0xFEFE = 0xFF := by decide

/-- A board that turns module 0's port reads and writes away. -/
def filtered : State :=
  { State.reset with cfg := { Config.default with ioBlocked := [⟨.m0, .read, 0, 0⟩, ⟨.m0, .write, 0, 0⟩] } }

theorem test_witness_portReads : State.reset.cfg.boardMode = .classic ∧ ioFilter State.reset.cfg .m0 0xFEFE .read = true ∧
    kempstonAnswers State.reset.cfg .m0 0x001F = true ∧ kempstonAnswers State.reset.cfg .m0 0x0021 = false ∧
    State.reset.cfg.externals = [.ayPair, .disk 0] ∧ ioFilter filtered.cfg .m0 0x001F .read = false := by decide

theorem test_witness_portWrites : ioFilter State.reset.cfg .m0 0x00FE .write = true ∧
    ioFilter filtered.cfg .m0 0x00FE .write = false ∧
    ((State.reset.portWrite 0x7FFD 0x23 0).core.port7FFD, (State.reset.portWrite 0xFFFD 0x23 0).core.port7FFD,
      (State.reset.portWrite 0x7FFF 0x23 0).core.port7FFD) = (0x23, 0, 0) := by decide

/-- 95_test_vectors.md B8 and B10 (R477, R478): the first line of the new colour. -/
theorem test_b8_border : ((State.reset.portWrite 0x00FE 2 2280).borderCur,
    (State.reset.portWrite 0x00FE 2 2280).borderLine[9]?, (State.reset.portWrite 0x00FE 2 2280).borderLine[10]?,
    (State.reset.portWrite 0x00FE 2 70910).borderLine[309]?, (State.reset.portWrite 0x00FE 2 70910).borderLine[310]?) =
    (2, some 0, some 2, some 0, some 2) := by decide +kernel

/-- A board at a frame's completion, with one byte at the end of bank 5's screen and another in bank 7. -/
def frameEnded (latch : Byte) : State :=
  { State.reset with
    mods := State.reset.mods.set .m0 { Module.zero with port7FFD := latch }
    heap := [(5 * 0x4000 + 0x1AFF, 0x55), (7 * 0x4000 + 0x1AFF, 0x77)]
    resetSeen := false }

theorem test_witness_videoAndRaster : (frameEnded 0).cfg.machineMap = .spectrum128 ∧
    ({ Config.default with machineMap := .spectrum48 }).machineMap = .spectrum48 ∧ 0 < profile128.tstatesPerLine ∧
    0 < profile128.linesPerFrame ∧ (frameEnded 0).frameStartPending = true ∧ (frameEnded 0).resetSeen = false ∧
    (frameEnded 0).opened.frameStartPending = false ∧ State.reset.resetSeen = true ∧
    Config.default.externals[0]? = some .ayPair ∧
    (rasterLine profile128 70907, rasterCol profile128 70907, rasterLine profile128 70908) = (310, 227, 310) := by decide +kernel

/-- R479 and R106: the screen page by bit 3 of the latch, an offset past 0x1AFF, and a read in the middle of a frame. -/
theorem test_readVideo : (frameEnded 0).readVideo .m0 0x1AFF = .ok 0x55 ∧ (frameEnded 8).readVideo .m0 0x1AFF = .ok 0x77 ∧
    (frameEnded 0).readVideo .m0 0x1B00 = .error .videoOffset ∧
    (frameEnded 0).opened.readVideo .m0 0x1AFF = .error .midFrame := ⟨rfl, rfl, rfl, rfl⟩

/-- R481: the AY pair gets the post-step hook and no other; the keyboard and the latch none. -/
theorem test_hooks : (preStepDevices Config.default, postStepDevices Config.default) = ([], [.outside 0]) := by decide

/-- R98: a hook that sets the flag at fetches from 3D00 to 3DFF gives a fetch there the TR-DOS image, and one elsewhere ROM image 0. -/
def beta : State :=
  let page3D : HookTree := [8, 10, 11, 12, 13].foldr (fun k x => .test (.address k) x (.flag false))
    ([9, 14, 15].foldr (fun k x => .test (.address k) (.flag false) x) (.flag true))
  let s := { State.reset with cfg := { Config.default with trdosHook := .given page3D } }
  let s0 := (s.loadBytes 0x3CFF [0x04]).loadBytes 0x3D00 [0x04]
  let s2 := (s0.mapCore fun c => { c with trdos := true }).loadBytes 0x3D00 [0x3C]
  s2.mapCore fun c => { c with trdos := false, pc := 0x3D00 }

theorem test_witness_loadRegister : HReg.isHalf .xh = true ∧ HReg.isHalf .xl = true ∧ HReg.isHalf .a = false := by decide

theorem test_witness_blockTransfers : let s := board (fun c => { c with c := 1 }) []
    s.core.bc = 1 ∧ State.reset.core.bc ≠ 1 ∧ s.cfg.blockRepeatXy = .classic ∧
    ({ Config.default with blockRepeatXy := .pcHigh }).blockRepeatXy = .pcHigh := by decide

theorem test_witness_blockSearches : searchGoesOn (board (fun c => { c with a := 1 }) []) = true ∧
    searchGoesOn (board (fun c => { c with a := 1, c := 1 }) []) = false ∧ searchGoesOn loaded = false := by decide

theorem test_witness_accumulatorAdjust : Config.default.scfCcfXy = .a ∧
    ({ Config.default with scfCcfXy := .aOrF }).scfCcfXy = .aOrF ∧ ({ Config.default with scfCcfXy := .zilogQ }).scfCcfXy = .zilogQ :=
  ⟨rfl, rfl, rfl⟩

theorem test_witness_daaIsDecimal :
    let s := board (fun c => { c with a := 0x99 }) []
    s.core.a = bcd 99 ∧
    (∃ t, exec (.addAN (bcd 1)) s = .next t ∧ ∃ u, exec .daa t = .next u ∧ u.core.a = 0x00 ∧ flagC u.core.f = true) ∧
    (∃ t, exec (.subN (bcd 99)) s = .next t ∧ ∃ u, exec .daa t = .next u ∧ u.core.a = 0x00 ∧ flagC u.core.f = false) :=
  ⟨rfl, ⟨_, rfl, _, rfl, rfl, rfl⟩, ⟨_, rfl, _, rfl, rfl, rfl⟩⟩

/-- R129's undefined opcodes at the ends of each range of `CpuControl`, and the opcodes just past them. -/
theorem test_witness_cpuControl : ([0x00, 0x3F, 0x80, 0x9F, 0xA4, 0xA7, 0xBC, 0xBF, 0xC0, 0xFF, 0x77, 0x7F].map isNoni).all id = true ∧
    ([0x40, 0x7E, 0x76, 0x78, 0xA0, 0xA3, 0xA8, 0xBB].map isNoni).any id = false := by decide

theorem test_witness_prefixedForms : Instr.unaffected .halt = true ∧ Instr.unaffected (.ldRR .a .b) = true ∧
    (Instr.prefixFdCb).isLonePrefix = true ∧ loaded.cfg.trdosHook = .identity ∧
    decode (encode .prefixFdCb ++ loaded.bytesAtPc 3) = some (.rotMIyR .rlc .b 0x00, [0x00]) := ⟨rfl, rfl, rfl, rfl, rfl⟩

theorem test_witness_conditions : condHolds .z 0x40 ∧ ¬ condHolds .z 0xBF ∧ condHolds .nc 0xFE ∧ ¬ condHolds .nc 0x01 ∧
    condHolds .pe 0x04 ∧ ¬ condHolds .po 0x04 ∧ condHolds .m 0x80 ∧ ¬ condHolds .p 0x80 ∧
    condHolds (JrCond.cond .c) 0x01 ∧ ¬ condHolds (JrCond.cond .nz) 0x40 := by
  refine ⟨?_, ?_, ?_, ?_, ?_, ?_, ?_, ?_, ?_, ?_⟩ <;> simp [condHolds, JrCond.cond]

theorem test_witness_djnz : State.reset.core.b ≠ 1 ∧ (board (fun c => { c with b := 1 }) []).core.b = 1 := by decide

theorem test_witness_retn : (0 : BitVec 3) ≠ 1 ∧ (7 : BitVec 3) ≠ 1 := by decide

theorem test_witness_blockInputOutput : ioRepeats true State.reset = true ∧ ioRepeats true (board (fun c => { c with b := 1 }) []) = false ∧
    ioRepeats false State.reset = false := by decide

theorem test_witness_stores : State.reset.isRam 0x4000 = true ∧ State.reset.isRam 0x3FFF = false ∧
    State.reset.sameByte 0x4000 0x4000 = true ∧ State.reset.sameByte 0x4000 0x4001 = false ∧
    State.reset.heapAddress 0x4000 = some 0x14000 ∧ State.reset.heapAddress 0x3FFF = none := by decide

/-- What a board step leaves, as seen by `see`. -/
def stepped {α : Type} (s : State) (see : State → α) : Option α :=
  match step s with
  | .next t => some (see t)
  | _ => none

/-- R501, R505: INC A placed where the first step after reset fetches. -/
theorem test_withFetchWord : stepped (State.reset.withFetchWord 8 0x3C) (fun t => (t.core.a, t.core.pc, t.core.t)) =
    some (0x01, 0x0001, 4) := by decide +kernel

/-- R98: the flag is evaluated before the fetch, so INC A of the TR-DOS image runs, not INC B of ROM image 0. -/
theorem test_trdosHook : stepped beta (fun t => (t.core.a, t.core.b, t.core.trdos)) = some (1, 0, true) ∧
    stepped (beta.mapCore fun c => { c with pc := 0x3CFF }) (fun t => (t.core.a, t.core.b, t.core.trdos)) =
      some (0, 1, false) := by decide +kernel

/-- 95_test_vectors.md B5 (R454): a step of 13 T-states from t = 70904 ends the frame. -/
theorem test_b5_carry : stepped (board (fun c => { c with t := 70904 }) [0x3A, 0x00, 0x40])
    (fun t => (t.mods.m0.t, t.frameNo, t.frameStartPending)) = some (9, 1, true) := by decide +kernel

/-- 95_test_vectors.md B21 (R500): a reset request keeps the frame number and spends no T-states. -/
theorem test_b21_reset : stepped { board (fun c => { c with pc := 0x1234, iff1 := true, port7FFD := 0x27, t := 9 }) [] with
      frameNo := 5, borderCur := 3, hostInputs := [[.resetRequest]] }
    (fun t => (t.core.pc, t.core.iff1, t.core.port7FFD, t.core.t, t.frameNo, t.borderCur)) =
    some (0x0000, false, 0x00, 0, 5, 0) := by decide +kernel

end Sys2Proof.Tests
end

section
/-!
The stack: what a push leaves in memory, and the round trip of a push and a pop (O27).
-/

namespace Sys2Proof.Machine

theorem sameByte_self (s : State) (a : Word) : s.sameByte a a = true := by
  simp [State.sameByte]

theorem sameByte_succ_right (s : State) (a : Word) : s.sameByte a (a + 1) = false :=
  Bool.eq_false_iff.mpr fun h => Bool.false_ne_true ((sameByte_succ s a (a + 1) h).symm.trans (sameByte_self s (a + 1)))

/-- A read after a push, by the pushing module: the low byte at SP-2, the high byte at SP-1, the old byte elsewhere (R17). -/
theorem readByte_push (s : State) (v b : Word) :
    (s.push v).readByte b =
      if s.isRam (s.core.sp - 2) && s.sameByte (s.core.sp - 2) b then loByte v
      else if s.isRam (s.core.sp - 1) && s.sameByte (s.core.sp - 1) b then hiByte v
      else s.readByte b := by
  obtain ⟨-, hread, -⟩ := storesTwo_push s v (s.push v).core (by simp) (by simp)
  rw [State.setCore_core, sub_two_add_one] at hread
  exact hread b

theorem readByte_push_low {s : State} (v : Word) (h : s.isRam (s.core.sp - 2) = true) :
    (s.push v).readByte (s.core.sp - 2) = loByte v := by
  rw [readByte_push, h, sameByte_self, Bool.and_true, if_pos rfl]

/-- The low byte, stored last, does not land on the high one: neighbours are two physical bytes under every map. -/
theorem readByte_push_high {s : State} (v : Word) (h : s.isRam (s.core.sp - 1) = true) :
    (s.push v).readByte (s.core.sp - 1) = hiByte v := by
  have apart : s.sameByte (s.core.sp - 2) (s.core.sp - 1) = false := by
    rw [← sub_two_add_one]; exact sameByte_succ_right s _
  rw [readByte_push, apart, Bool.and_false, if_neg Bool.false_ne_true, h, sameByte_self, Bool.and_true, if_pos rfl]

/-- The word a pop after a push returns is read from the two bytes the push stored. -/
theorem popValue_push {s : State} (v : Word) (hHigh : s.isRam (s.core.sp - 1) = true)
    (hLow : s.isRam (s.core.sp - 2) = true) : (s.push v).popValue = v := by
  obtain ⟨hpop, -⟩ := State.pop_spec (s.push v)
  rw [hpop, State.core_push, sub_two_add_one, readByte_push_high v hHigh, readByte_push_low v hLow, pair_hiByte_loByte]

/-- A pop after a push gives SP back, over ROM too. -/
theorem core_popped_push (s : State) (v : Word) : (s.push v).popped.core = s.core := by
  obtain ⟨-, hpopped⟩ := State.pop_spec (s.push v)
  rw [hpopped, State.core_setCore, State.core_push, BitVec.sub_add_cancel]

/-- Settles O27: the bytes a push stores, and the pop that undoes it. -/
theorem stackRoundTrip : Obligations.StackRoundTrip := by
  intro s v hHigh hLow
  exact ⟨by rw [State.core_push], readByte_push_high v hHigh, readByte_push_low v hLow,
    popValue_push v hHigh hLow, core_popped_push s v⟩

end Sys2Proof.Machine
end

section
/-!
Byte writes on the shared heap as every module of the board sees them (O26).
-/

namespace Sys2Proof.Machine

/-- A read behind any backing after a byte write: the new byte where the backing and the offset are the written RAM byte's. -/
theorem readBacking_writeByte (s : State) (a : Word) (v : Byte) (k : Backing) {off : Nat} (hoff : off < 0x4000) :
    (s.writeByte a v).readBacking k off =
      if s.isRam a = true ∧ k = s.backing a ∧ off = slotOffset a then v else s.readBacking k off := by
  cases ha : s.backing a with
  | rom image => simp [isRam_of_rom ha, State.writeByte, ha]
  | ram bank =>
    cases k with
    | rom image => simp [State.readBacking, State.romByte]
    | ram other =>
      have same := physical_inj (j := other) (k := bank) hoff (slotOffset_lt a)
      simp only [State.readBacking, State.heapByte, State.writeByte, ha, isRam_of_ram ha, Mem.read_write, same,
        Backing.ram.injEq, true_and]
      split <;> rfl

/-- The map of every module is as before a byte write. -/
theorem backing_seenBy_writeByte (s : State) (a : Word) (v : Byte) (m : ModuleId) (b : Word) :
    (seenBy m (s.writeByte a v)).backing b = (seenBy m s).backing b := by
  rw [State.writeByte_eq]; rfl

/-- What a module reads is what its own map names in the one shared memory (R97). -/
theorem readByte_seenBy (s : State) (m : ModuleId) (b : Word) :
    (seenBy m s).readByte b = s.readBacking ((seenBy m s).backing b) (slotOffset b) := rfl

/-- Settles O26: every module reads the one heap through its own map, which a write leaves as it is. -/
theorem writesSeenByAll : Obligations.WritesSeenByAll := by
  intro s a v m b
  refine ⟨heapKept_one (State.heap_writeByte s a v), ?_⟩
  rw [readByte_seenBy, backing_seenBy_writeByte, readBacking_writeByte s a v _ (slotOffset_lt b), ← readByte_seenBy]

end Sys2Proof.Machine
end

section
/-!
Port writes: the bank-select latch behind its lock, and the border latch behind the I/O filter (O32).
-/

namespace Sys2Proof.Machine

/-- The border latch leaves every module as it is. -/
theorem core_borderWrite (s : State) (port : Word) (v : Byte) (tw : Nat) : (s.borderWrite port v tw).core = s.core := by
  unfold State.borderWrite; split <;> rfl

/-- The modules see the module decode of a port write only: it goes before the filter and the devices (R485). -/
theorem core_portWrite (s : State) (port : Word) (v : Byte) (tw : Nat) :
    (s.portWrite port v tw).core = (s.bankSelect port v).core := by
  unfold State.portWrite; split
  · exact core_borderWrite _ port v tw
  · rfl

theorem isBankSelect_iff (g : Config) (port : Word) : isBankSelect g port = true ↔
    g.machineMap = .spectrum128 ∧ port.getLsbD 15 = false ∧ port.getLsbD 1 = false := by
  simp only [isBankSelect, Bool.and_eq_true, beq_iff_eq, Bool.not_eq_true', and_assoc]

/-- The latch takes a byte from the bank-select port while it is unlocked (R93, R94). -/
theorem port7FFD_bankSelect (s : State) (port : Word) (v : Byte) :
    (s.bankSelect port v).core.port7FFD =
      if isBankSelect s.cfg port = true ∧ s.core.port7FFD.getLsbD 5 = false then v else s.core.port7FFD := by
  unfold State.bankSelect
  split
  · next hsel =>
    rw [State.core_mapCore, lockedWrite]
    cases hlock : s.core.port7FFD.getLsbD 5 <;> simp [hsel]
  · next hsel => rw [if_neg fun h => hsel h.1]

/-- The module decode does not touch the border. -/
theorem border_bankSelect (s : State) (port : Word) (v : Byte) :
    (s.bankSelect port v).borderCur = s.borderCur ∧ (s.bankSelect port v).borderLine = s.borderLine ∧
      (s.bankSelect port v).cfg = s.cfg := by
  unfold State.bankSelect; split <;> exact ⟨rfl, rfl, rfl⟩

theorem getLsbD_zero_eq_false_iff (port : Word) : port.getLsbD 0 = false ↔ port.toNat % 2 = 0 := by
  rw [BitVec.getLsbD, Nat.testBit_zero, decide_eq_false_iff_not, Nat.mod_two_not_eq_one]

/-- An even port the filter lets through: the border latch takes bits 2..0, from the write's line on (R477, R478). -/
theorem border_portWrite_even {s : State} {port : Word} (heven : port.toNat % 2 = 0)
    (hopen : ioFilter s.cfg s.cur port .write = true) (v : Byte) (tw : Nat) :
    (s.portWrite port v tw).borderCur = v.extractLsb' 0 3 ∧
      (s.portWrite port v tw).borderLine = fillFrom s.borderLine (borderLineOf s.cfg tw) (v.extractLsb' 0 3) := by
  obtain ⟨-, hline, hcfg⟩ := border_bankSelect s port v
  have hbit := (getLsbD_zero_eq_false_iff port).mpr heven
  rw [State.portWrite, if_pos hopen, State.borderWrite, if_pos hbit, hline, hcfg]
  exact ⟨rfl, rfl⟩

/-- An odd port is not the border latch's, and a filtered write reaches no device (R477, R485). -/
theorem border_portWrite_kept {s : State} {port : Word}
    (hno : port.toNat % 2 = 1 ∨ ioFilter s.cfg s.cur port .write = false) (v : Byte) (tw : Nat) :
    (s.portWrite port v tw).borderCur = s.borderCur ∧ (s.portWrite port v tw).borderLine = s.borderLine := by
  obtain ⟨hcur, hline, -⟩ := border_bankSelect s port v
  unfold State.portWrite
  split
  · next hopen =>
    have hodd : ¬ port.getLsbD 0 = false := by
      rw [getLsbD_zero_eq_false_iff]
      rcases hno with hodd | hshut
      · omega
      · exact absurd (hshut.symm.trans hopen) Bool.false_ne_true
    rw [State.borderWrite, if_neg hodd]
    exact ⟨hcur, hline⟩
  · exact ⟨hcur, hline⟩

/-- The clamp of R478 over the integers, as the model computes it over the naturals. -/
theorem lt_borderLineOf_iff (g : Config) (tw l : Nat) :
    (l : Int) < max 0 (min (((tw : Int) + g.borderOffset) / g.timing.tstatesPerLine)
      ((g.timing.linesPerFrame - 1 : Nat) : Int)) ↔ l < borderLineOf g tw := by
  unfold borderLineOf; omega

theorem extractLsb'_three_eq_ofNat (v : Byte) : v.extractLsb' 0 3 = BitVec.ofNat 3 v.toNat := by
  simp [BitVec.extractLsb']

/-- The lines above the write's line keep their colour, the others take the new one (R478). -/
theorem getElem?_fillFrom_borderLineOf (s : State) (c : BitVec 3) (tw : Nat) {l : Nat} (hl : l < s.borderLine.length) :
    (fillFrom s.borderLine (borderLineOf s.cfg tw) c)[l]? =
      if (l : Int) < max 0 (min (((tw : Int) + s.cfg.borderOffset) / s.cfg.timing.tstatesPerLine)
          ((s.cfg.timing.linesPerFrame - 1 : Nat) : Int))
        then s.borderLine[l]? else some c := by
  simp only [lt_borderLineOf_iff, fillFrom_get, hl, true_and, ← Nat.not_lt, ite_not]

/-- What the frame of a port write says of the module: only its latch may change. -/
theorem core_portWrite_latch (s : State) (port : Word) (v : Byte) (tw : Nat) :
    (s.portWrite port v tw).core = { s.core with port7FFD := (s.portWrite port v tw).core.port7FFD } :=
  (congrArg State.core (State.portWrite_frame s port v tw)).trans (State.core_setCore s _)

/-- The frame of a port write, by the fields it may change. -/
theorem portWrite_fields (s : State) (port : Word) (v : Byte) (tw : Nat) :
    s.portWrite port v tw = { s with
      mods := (s.portWrite port v tw).mods
      borderCur := (s.portWrite port v tw).borderCur
      borderLine := (s.portWrite port v tw).borderLine } := by
  rw [State.portWrite_frame]; rfl

/-- Settles O32: the module decode, then the border latch behind the filter. -/
theorem portWrites : Obligations.PortWrites := by
  intro s port v tw
  refine ⟨?latch, fun heven hopen => ?border, fun hno => border_portWrite_kept hno v tw,
    portWrite_fields s port v tw, core_portWrite_latch s port v tw⟩
  case latch => simp only [core_portWrite, port7FFD_bankSelect, isBankSelect_iff, and_assoc]
  case border =>
    obtain ⟨hcur, hline⟩ := border_portWrite_even heven hopen v tw
    rw [hcur, hline, extractLsb'_three_eq_ofNat]
    exact ⟨BitVec.toNat_ofNat _ _, fillFrom_length _ _ _, fun l => getElem?_fillFrom_borderLineOf s _ tw⟩

end Sys2Proof.Machine
end

section
/-!
The logical map: what backs each 16 KB slot under the 128K and the 48K map (O25).
-/

namespace Sys2Proof.Machine

theorem slot_toNat (a : Word) : (slot a).toNat = a.toNat / 0x4000 := by
  have := a.isLt
  simp only [slot, BitVec.extractLsb'_toNat, Nat.shiftRight_eq_div_pow]
  omega

/-- Slot `k` is the 16 KB from `k * 0x4000` on (R91). -/
theorem slot_eq_iff (a : Word) (k : BitVec 2) :
    slot a = k ↔ k.toNat * 0x4000 ≤ a.toNat ∧ a.toNat < (k.toNat + 1) * 0x4000 := by
  rw [← BitVec.toNat_inj, slot_toNat]; omega

/-- The RAM page at 0xC000 is the latch modulo 8 (R93). -/
theorem latchPage_eq {latch : Byte} {p : Fin 8} (h : p.val = latch.toNat % 8) : latchPage latch = p := by
  apply Fin.ext
  rw [h]
  simp [latchPage]

/-- The 128K map, slot by slot (R92). -/
theorem backing_spectrum128 {s : State} (hmap : s.cfg.machineMap = .spectrum128) (a : Word) :
    (slot a = 0 → s.backing a = .rom (romImage128 s.core)) ∧
    (slot a = 1 → s.backing a = .ram (heapBank s.cfg s.cur 5)) ∧
    (slot a = 2 → s.backing a = .ram (heapBank s.cfg s.cur 2)) ∧
    (slot a = 3 → s.backing a = .ram (heapBank s.cfg s.cur (latchPage s.core.port7FFD))) := by
  refine ⟨?_, ?_, ?_, ?_⟩ <;> intro hslot <;> simp [State.backing, backing, hmap, hslot]

/-- The 48K map, slot by slot (R95). -/
theorem backing_spectrum48 {s : State} (hmap : s.cfg.machineMap = .spectrum48) (a : Word) :
    (slot a = 0 → s.backing a = .rom (romImage48 s.core)) ∧
    (slot a = 1 → s.backing a = .ram (heapBank s.cfg s.cur 5)) ∧
    (slot a = 2 → s.backing a = .ram (heapBank s.cfg s.cur 2)) ∧
    (slot a = 3 → s.backing a = .ram (heapBank s.cfg s.cur 0)) := by
  refine ⟨?_, ?_, ?_, ?_⟩ <;> intro hslot <;> simp [State.backing, backing, hmap, hslot]

/-- The address ranges of the map's description are the four slots. -/
theorem slot_of_range (a : Word) :
    (a.toNat < 0x4000 → slot a = 0) ∧ (0x4000 ≤ a.toNat → a.toNat < 0x8000 → slot a = 1) ∧
    (0x8000 ≤ a.toNat → a.toNat < 0xC000 → slot a = 2) ∧ (0xC000 ≤ a.toNat → slot a = 3) :=
  ⟨fun hi => (slot_eq_iff a 0).mpr ⟨Nat.zero_le _, hi⟩, fun lo hi => (slot_eq_iff a 1).mpr ⟨lo, hi⟩,
    fun lo hi => (slot_eq_iff a 2).mpr ⟨lo, hi⟩, fun lo => (slot_eq_iff a 3).mpr ⟨lo, a.isLt⟩⟩

/-- Settles O25: each slot of the two maps, found from the address. -/
theorem memoryMap : Obligations.MemoryMap := by
  intro s a
  obtain ⟨slot0, slot1, slot2, slot3⟩ := slot_of_range a
  refine ⟨slotOffset_eq a, fun hmap => ?map128, fun hmap => ?map48⟩
  case map128 =>
    obtain ⟨at0, at1, at2, at3⟩ := backing_spectrum128 hmap a
    refine ⟨fun h => at0 (slot0 h), fun lo hi => at1 (slot1 lo hi), fun lo hi => at2 (slot2 lo hi), fun lo p hp => ?_⟩
    rw [at3 (slot3 lo), latchPage_eq hp]; rfl
  case map48 =>
    obtain ⟨at0, at1, at2, at3⟩ := backing_spectrum48 hmap a
    exact ⟨fun h => at0 (slot0 h), fun lo hi => at1 (slot1 lo hi), fun lo hi => at2 (slot2 lo hi),
      fun lo => at3 (slot3 lo)⟩

end Sys2Proof.Machine
end

section
/-!
What the outside reads: the video snapshot at a frame's completion, the hooks of the registry's devices, and the raster (O33).
-/

namespace Sys2Proof.Machine

theorem atFrameEnd_iff (s : State) : s.atFrameEnd = true ↔ s.frameStartPending = true ∧ s.resetSeen = false := by
  simp [State.atFrameEnd]

/-! ### The video snapshot (R479, R106) -/

theorem readVideo_past_end (s : State) (m : ModuleId) {offset : Nat} (h : 0x1AFF < offset) :
    s.readVideo m offset = .error .videoOffset := by
  rw [State.readVideo, if_pos h]

theorem readVideo_mid_frame {s : State} (h : s.frameStartPending = false ∨ s.resetSeen = true) (m : ModuleId)
    {offset : Nat} (hoff : offset ≤ 0x1AFF) : s.readVideo m offset = .error .midFrame := by
  have hnot : ¬ s.atFrameEnd = true := by
    rw [atFrameEnd_iff]
    rintro ⟨hpending, hreset⟩
    simp [hpending, hreset] at h
  rw [State.readVideo, if_neg (Nat.not_lt.mpr hoff), if_neg hnot]

theorem readVideo_frame_end {s : State} (hpending : s.frameStartPending = true) (hreset : s.resetSeen = false)
    (m : ModuleId) {offset : Nat} (hoff : offset ≤ 0x1AFF) :
    s.readVideo m offset =
      .ok (s.heapByte (physical (heapBank s.cfg m (videoPage s.cfg (s.mods.get m))) offset)) := by
  rw [State.readVideo, if_neg (Nat.not_lt.mpr hoff), if_pos ((atFrameEnd_iff s).mpr ⟨hpending, hreset⟩)]

theorem videoPage_spectrum128 {g : Config} (h : g.machineMap = .spectrum128) (c : Module) :
    videoPage g c = if c.port7FFD.getLsbD 3 = true then 7 else 5 := by
  rw [videoPage, h]

theorem videoPage_spectrum48 {g : Config} (h : g.machineMap = .spectrum48) (c : Module) : videoPage g c = 5 := by
  rw [videoPage, h]

/-! ### The hooks (R481) -/

theorem mem_preStepDevices (g : Config) (d : Device) :
    d ∈ preStepDevices g ↔ d ∈ registry g ∧ (notificationFlags g d).getLsbD 0 = true := List.mem_filter

theorem mem_postStepDevices (g : Config) (d : Device) :
    d ∈ postStepDevices g ↔ d ∈ registry g ∧ (notificationFlags g d).getLsbD 1 = true := List.mem_filter

/-- A device with no notification flag gets neither hook. -/
theorem no_hook_of_flags_zero {g : Config} {d : Device} (h : notificationFlags g d = 0) :
    d ∉ preStepDevices g ++ postStepDevices g := by
  simp [mem_preStepDevices, mem_postStepDevices, h]

theorem outside_mem_registry {g : Config} {k : Nat} (h : k < g.externals.length) : Device.outside k ∈ registry g := by
  simp [registry, h]

/-- The AY pair is notified after the step only. -/
theorem ayPair_hooks {g : Config} {k : Nat} (h : g.externals[k]? = some .ayPair) :
    Device.outside k ∈ postStepDevices g ∧ Device.outside k ∉ preStepDevices g := by
  obtain ⟨hk, -⟩ := List.getElem?_eq_some_iff.mp h
  have hflags : notificationFlags g (.outside k) = 2 := by simp [notificationFlags, h, ExternalDevice.flags]
  rw [mem_postStepDevices, mem_preStepDevices, hflags]
  exact ⟨⟨outside_mem_registry hk, by decide⟩, fun hpre => absurd hpre.2 (by decide)⟩

/-! ### The raster (R471) -/

theorem rasterLine_lt {p : TimingProfile} (h : 0 < p.linesPerFrame) (t : Nat) : rasterLine p t < p.linesPerFrame := by
  unfold rasterLine; omega

/-- Within the frame no clamp acts, and the line and the column give the frame time back. -/
theorem rasterLine_mul_add_rasterCol {p : TimingProfile} {t : Nat} (h : t < tstatesPerFrame p) :
    rasterLine p t * p.tstatesPerLine + rasterCol p t = t := by
  have hline : t / p.tstatesPerLine < p.linesPerFrame := Nat.div_lt_of_lt_mul h
  rw [rasterLine, rasterCol, Nat.min_eq_left (by omega), Nat.div_add_mod']

theorem rasterLine_clamped {p : TimingProfile} (hpos : 0 < p.tstatesPerLine) {t : Nat} (h : tstatesPerFrame p ≤ t) :
    rasterLine p t = p.linesPerFrame - 1 := by
  have hline : p.linesPerFrame ≤ t / p.tstatesPerLine :=
    (Nat.le_div_iff_mul_le hpos).mpr (Nat.le_trans (Nat.le_of_eq (Nat.mul_comm _ _)) h)
  rw [rasterLine, Nat.min_eq_right (by omega)]

/-- Settles O33: the snapshot's three answers, the hooks by the flags, the raster by division with remainder. -/
theorem videoAndRaster : Obligations.VideoAndRaster := by
  refine ⟨fun s m offset => readVideo_past_end s m, fun s m offset hoff h => readVideo_mid_frame h m hoff,
    fun s m offset hoff hpending hreset => ⟨fun hmap => ?page128, fun hmap => ?page48⟩,
    fun g => ⟨no_hook_of_flags_zero rfl, no_hook_of_flags_zero rfl, fun k => ayPair_hooks⟩,
    fun p t hline hlines => ⟨rasterLine_lt hlines t, Nat.mod_lt t hline, rasterLine_mul_add_rasterCol,
      rasterLine_clamped hline⟩⟩
  case page128 => rw [readVideo_frame_end hpending hreset m hoff, videoPage_spectrum128 hmap]; rfl
  case page48 => rw [readVideo_frame_end hpending hreset m hoff, videoPage_spectrum48 hmap]; rfl

end Sys2Proof.Machine
end

section
/-!
Opcode fields: an opcode byte is its fields (R123), and each field table of R126 has the field values as its inverse.
-/

namespace Sys2Proof

/-! ### The fields of an opcode (R123) -/

@[simp] theorem fieldX_opXYZ (x : BitVec 2) (y z : BitVec 3) : fieldX (opXYZ x y z) = x := by decide +revert

@[simp] theorem fieldY_opXYZ (x : BitVec 2) (y z : BitVec 3) : fieldY (opXYZ x y z) = y := by decide +revert

@[simp] theorem fieldZ_opXYZ (x : BitVec 2) (y z : BitVec 3) : fieldZ (opXYZ x y z) = z := by decide +revert

theorem opXYZ_fields (b : Byte) : opXYZ (fieldX b) (fieldY b) (fieldZ b) = b := by decide +revert

@[simp] theorem fieldP_opXPQZ (x p : BitVec 2) (q : Bool) (z : BitVec 3) : fieldP (opXPQZ x p q z) = p := by
  decide +revert

@[simp] theorem fieldQ_opXPQZ (x p : BitVec 2) (q : Bool) (z : BitVec 3) : fieldQ (opXPQZ x p q z) = q := by
  decide +revert

/-- The field y is p, then q. -/
theorem opXYZ_eq_opXPQZ (x : BitVec 2) (y z : BitVec 3) :
    opXYZ x y z = opXPQZ x (y.extractLsb' 1 2) (y.getLsbD 0) z := by
  decide +revert

/-! ### Case splits along the fields -/

/-- A byte, as the opcode of its fields. -/
theorem opcode_cases {motive : Byte → Prop} (fields : ∀ x y z, motive (opXYZ x y z)) (b : Byte) : motive b :=
  opXYZ_fields b ▸ fields (fieldX b) (fieldY b) (fieldZ b)

theorem field2_cases {motive : BitVec 2 → Prop} (k0 : motive 0#2) (k1 : motive 1#2) (k2 : motive 2#2)
    (k3 : motive 3#2) (k : BitVec 2) : motive k := by
  obtain rfl | rfl | rfl | rfl : k = 0#2 ∨ k = 1#2 ∨ k = 2#2 ∨ k = 3#2 := by decide +revert
  all_goals assumption

theorem field3_cases {motive : BitVec 3 → Prop} (k0 : motive 0#3) (k1 : motive 1#3) (k2 : motive 2#3)
    (k3 : motive 3#3) (k4 : motive 4#3) (k5 : motive 5#3) (k6 : motive 6#3) (k7 : motive 7#3) (k : BitVec 3) :
    motive k := by
  obtain rfl | rfl | rfl | rfl | rfl | rfl | rfl | rfl : k = 0#3 ∨ k = 1#3 ∨ k = 2#3 ∨ k = 3#3 ∨ k = 4#3 ∨ k = 5#3 ∨
    k = 6#3 ∨ k = 7#3 := by decide +revert
  all_goals assumption

/-- A register field names a register, or the memory operand by 6 (R126). -/
theorem reg8_cases {motive : BitVec 3 → Prop} (reg : ∀ r : Reg8, motive r.code) (mem : motive 6#3) (k : BitVec 3) :
    motive k := by
  cases k using field3_cases
  case k0 => exact reg .b
  case k1 => exact reg .c
  case k2 => exact reg .d
  case k3 => exact reg .e
  case k4 => exact reg .h
  case k5 => exact reg .l
  case k6 => exact mem
  case k7 => exact reg .a

/-! ### The field tables and the field values (R126) -/

@[simp] theorem reg8Of_code (r : Reg8) : reg8Of r.code = some r := by cases r <;> rfl

@[simp] theorem reg8Of_six : reg8Of 6#3 = none := rfl

@[simp] theorem hregOf_code (p : HReg) : hregOf p.code = some p := by cases p <;> rfl

@[simp] theorem code_rpOf (k : BitVec 2) : (rpOf k).code = k := by cases k using field2_cases <;> rfl

@[simp] theorem code_rp2Of (k : BitVec 2) : (rp2Of k).code = k := by cases k using field2_cases <;> rfl

@[simp] theorem code_xpOf (k : BitVec 2) : (xpOf k).code = k := by cases k using field2_cases <;> rfl

@[simp] theorem code_condOf (k : BitVec 3) : (condOf k).code = k := by cases k using field3_cases <;> rfl

@[simp] theorem code_rotOf (k : BitVec 3) : (rotOf k).code = k := by cases k using field3_cases <;> rfl

@[simp] theorem rotOf_code (op : RotOp) : rotOf op.code = op := by cases op <;> rfl

/-! ### Prefix bytes and the opcodes they leave as they are -/

/-- CB, DD, ED or FD (R124, R127). -/
def isPrefix (b : Byte) : Bool := b == 0xCB || cancelsPrefix b

/-- The opcode of an unprefixed instruction before which DD or FD has no effect (R124(d), R286). -/
def passesPrefix (b : Byte) : Bool := !isPrefix b && !isAffected b

theorem isPrefix_eq_false_iff (b : Byte) : isPrefix b = false ↔ b ≠ 0xCB ∧ cancelsPrefix b = false := by
  simp [isPrefix]

theorem passesPrefix_iff (b : Byte) : passesPrefix b = true ↔ isPrefix b = false ∧ isAffected b = false := by
  simp [passesPrefix]

/-- H and L have the field values of the halves, the other registers their own (R168). -/
theorem exists_hreg_code (r : Reg8) : ∃ p : HReg, p.code = r.code ∧ p.isHalf = r.isHL := by
  cases r
  case b => exact ⟨.b, rfl, rfl⟩
  case c => exact ⟨.c, rfl, rfl⟩
  case d => exact ⟨.d, rfl, rfl⟩
  case e => exact ⟨.e, rfl, rfl⟩
  case h => exact ⟨.xh, rfl, rfl⟩
  case l => exact ⟨.xl, rfl, rfl⟩
  case a => exact ⟨.a, rfl, rfl⟩

theorem isPrefix_opXYZ_one (y z : BitVec 3) : isPrefix (opXYZ 1 y z) = false := by decide +revert

/-- An opcode of LD p,p' is affected where one of its operands is a half (R130, R168). -/
theorem isAffected_ldPP (p p' : HReg) : isAffected (opXYZ 1 p.code p'.code) = (p.isHalf || p'.isHalf) := by
  cases p <;> cases p' <;> rfl

/-- DD and FD have no effect on LD r,r' where neither operand is H or L (R124(d)). -/
theorem passesPrefix_ldRR (r r' : Reg8) : passesPrefix (opXYZ 1 r.code r'.code) = (!r.isHL && !r'.isHL) := by
  obtain ⟨p, hp, hhalf⟩ := exists_hreg_code r
  obtain ⟨p', hp', hhalf'⟩ := exists_hreg_code r'
  rw [passesPrefix, isPrefix_opXYZ_one, ← hp, ← hp', isAffected_ldPP, hhalf, hhalf', Bool.not_or]
  rfl

/-- R130's list and the prefixes are together the first bytes of everything but the unaffected instructions. -/
theorem unaffected_eq_passesPrefix (i : Instr) : i.unaffected = passesPrefix ((encode i).headD 0xCB) := by
  cases i with
  | ldDdNn p | incSs p | addHlSs p | decSs p | popQq p | pushQq p => cases p <;> rfl
  | incR r | decR r | ldRN r | ldRMHl r | ldMHlR r | addAR r | adcAR r | subR r | sbcAR r | andR r | xorR r | orR r
  | cpR r => cases r <;> rfl
  | ldRR r r' => exact (passesPrefix_ldRR r r').symm
  | jrCc cc | retCc cc | jpCcNn cc | callCcNn cc => cases cc <;> rfl
  | rst y => cases y using field3_cases <;> rfl
  | ddFd x | ignoredPrefix x | incHalf x | decHalf x | ldHalfN x | ldPP x | addAHalf x | adcAHalf x | subHalf x
  | sbcAHalf x | andHalf x | xorHalf x | orHalf x | cpHalf x => cases x <;> rfl
  | _ => rfl

/-- The ED opcodes with no instruction, by their fields (R283). -/
theorem isNoni_opXYZ (x : BitVec 2) (y z : BitVec 3) : isNoni (opXYZ x y z) =
    (x == 0 || x == 3 || x == 1 && y ≥ 6 && z == 7 || x == 2 && (y < 4 || z ≥ 4)) := by
  decide +revert

end Sys2Proof
end

section
/-!
The decoder, one lemma per function of it: what it reads is a whole instruction of exactly the bytes it took, and two bytes
after the opcode are enough for it to answer (O2, O3).
-/

namespace Sys2Proof

/-- The term is a well-formed instruction, all of it fetched, and these are its bytes. -/
def Whole (i : Instr) (bytes : List Byte) : Prop :=
  i.wellFormed = true ∧ i.isLonePrefix = false ∧ encode i = bytes

/-- A good answer for the bytes `pre ++ rest`, where the prefixes and the opcode are `pre`: a whole instruction of the bytes
taken, or none where an operand byte is missing. -/
def Reads (pre rest : List Byte) : Decoded → Prop
  | some (i, rest') => i.wellFormed = true ∧ i.isLonePrefix = false ∧ encode i ++ rest' = pre ++ rest
  | none => rest.length < 2

variable {pre rest : List Byte}

theorem reads_noOperand {i : Instr} (h : Whole i pre) : Reads pre rest (noOperand i rest) := by
  obtain ⟨hwf, hlone, rfl⟩ := h
  exact ⟨hwf, hlone, rfl⟩

theorem reads_oneByte {k : Byte → Instr} (h : ∀ n, Whole (k n) (pre ++ [n])) : Reads pre rest (oneByte k rest) := by
  cases rest with
  | nil => exact Nat.zero_lt_two
  | cons n rest =>
    obtain ⟨hwf, hlone, henc⟩ := h n
    exact ⟨hwf, hlone, by rw [henc, List.append_assoc]; rfl⟩

theorem reads_oneWord {k : Word → Instr} (h : ∀ nn, Whole (k nn) (pre ++ wordBytes nn)) :
    Reads pre rest (oneWord k rest) := by
  match rest with
  | [] | [_] => simp [oneWord, Reads]
  | nl :: nh :: rest =>
    obtain ⟨hwf, hlone, henc⟩ := h (pair nh nl)
    exact ⟨hwf, hlone, by simp [henc, wordBytes]⟩

theorem reads_twoBytes {k : Byte → Byte → Instr} (h : ∀ d n, Whole (k d n) (pre ++ [d, n])) :
    Reads pre rest (twoBytes k rest) := by
  match rest with
  | [] | [_] => simp [twoBytes, Reads]
  | d :: n :: rest =>
    obtain ⟨hwf, hlone, henc⟩ := h d n
    exact ⟨hwf, hlone, by simp [henc]⟩

/-! ### The accumulator operations and the rotates -/

theorem aluReg_whole (y : BitVec 3) (r : Reg8) : Whole (aluReg y r) [opXYZ 2 y r.code] := by
  cases y using field3_cases <;> exact ⟨rfl, rfl, rfl⟩

theorem aluMHl_whole (y : BitVec 3) : Whole (aluMHl y) [opXYZ 2 y 6] := by
  cases y using field3_cases <;> exact ⟨rfl, rfl, rfl⟩

theorem aluImm_whole (y : BitVec 3) (n : Byte) : Whole (aluImm y n) [opXYZ 3 y 6, n] := by
  cases y using field3_cases <;> exact ⟨rfl, rfl, rfl⟩

theorem aluHalf_whole (y : BitVec 3) (x : IdxReg) (h : Half) :
    Whole (aluHalf y x h) [x.prefixByte, opXYZ 2 y h.code] := by
  cases y using field3_cases <;> exact ⟨rfl, rfl, rfl⟩

theorem aluIdx_whole (y : BitVec 3) (x : IdxReg) (d : Byte) :
    Whole (aluIdx y x d) [x.prefixByte, opXYZ 2 y 6, d] := by
  cases x <;> cases y using field3_cases <;> exact ⟨rfl, rfl, rfl⟩

theorem rotReg_whole (y : BitVec 3) (r : Reg8) : Whole (rotReg y r) [0xCB, opXYZ 0 y r.code] := by
  cases y using field3_cases <;> exact ⟨rfl, rfl, rfl⟩

/-! ### The unprefixed space (R127) -/

theorem decodeX0Z0_reads (y : BitVec 3) : Reads [opXYZ 0 y 0] rest (decodeX0Z0 (opXYZ 0 y 0) rest) := by
  cases y using field3_cases with
  | k0 | k1 => exact reads_noOperand ⟨rfl, rfl, rfl⟩
  | _ => exact reads_oneByte fun _ => ⟨rfl, rfl, rfl⟩

theorem decodeX0Z2_reads (y : BitVec 3) : Reads [opXYZ 0 y 2] rest (decodeX0Z2 (opXYZ 0 y 2) rest) := by
  cases y using field3_cases with
  | k0 | k1 | k2 | k3 => exact reads_noOperand ⟨rfl, rfl, rfl⟩
  | _ => exact reads_oneWord fun _ => ⟨rfl, rfl, rfl⟩

theorem decodeX0Z7_whole (y : BitVec 3) : Whole (decodeX0Z7 (opXYZ 0 y 7)) [opXYZ 0 y 7] := by
  cases y using field3_cases <;> exact ⟨rfl, rfl, rfl⟩

theorem decodeX0_reads (y z : BitVec 3) : Reads [opXYZ 0 y z] rest (decodeX0 (opXYZ 0 y z) rest) := by
  cases z using field3_cases <;> simp only [decodeX0, fieldY_opXYZ, fieldZ_opXYZ]
  case k0 => exact decodeX0Z0_reads y
  case k1 =>
    rw [opXYZ_eq_opXPQZ, fieldP_opXPQZ, fieldQ_opXPQZ]
    cases y.getLsbD 0
    · exact reads_oneWord fun _ => ⟨rfl, rfl, by simp [encode]⟩
    · exact reads_noOperand ⟨rfl, rfl, by simp [encode]⟩
  case k2 => exact decodeX0Z2_reads y
  case k3 =>
    rw [opXYZ_eq_opXPQZ, fieldP_opXPQZ, fieldQ_opXPQZ]
    cases y.getLsbD 0 <;> exact reads_noOperand ⟨rfl, rfl, by simp [encode]⟩
  case k4 | k5 =>
    cases y using reg8_cases <;> simp only [reg8Of_code, reg8Of_six] <;> exact reads_noOperand ⟨rfl, rfl, rfl⟩
  case k6 =>
    cases y using reg8_cases <;> simp only [reg8Of_code, reg8Of_six] <;> exact reads_oneByte fun _ => ⟨rfl, rfl, rfl⟩
  case k7 => exact reads_noOperand (decodeX0Z7_whole y)

theorem decodeX1_whole (y z : BitVec 3) : Whole (decodeX1 (opXYZ 1 y z)) [opXYZ 1 y z] := by
  cases y using reg8_cases <;> cases z using reg8_cases <;>
    simp only [decodeX1, fieldY_opXYZ, fieldZ_opXYZ, reg8Of_code, reg8Of_six] <;> exact ⟨rfl, rfl, rfl⟩

theorem decodeX2_whole (y z : BitVec 3) : Whole (decodeX2 (opXYZ 2 y z)) [opXYZ 2 y z] := by
  cases z using reg8_cases <;> simp only [decodeX2, fieldY_opXYZ, fieldZ_opXYZ, reg8Of_code, reg8Of_six]
  case reg r => exact aluReg_whole y r
  case mem => exact aluMHl_whole y

theorem decodeX3Z1_whole (y : BitVec 3) : Whole (decodeX3Z1 (opXYZ 3 y 1)) [opXYZ 3 y 1] := by
  cases y using field3_cases <;> exact ⟨rfl, rfl, rfl⟩

theorem decodeX3Z3_reads {y : BitVec 3} (h : isPrefix (opXYZ 3 y 3) = false) :
    Reads [opXYZ 3 y 3] rest (decodeX3Z3 (opXYZ 3 y 3) rest) := by
  cases y using field3_cases with
  | k0 => exact reads_oneWord fun _ => ⟨rfl, rfl, rfl⟩
  | k1 => cases h
  | k2 | k3 => exact reads_oneByte fun _ => ⟨rfl, rfl, rfl⟩
  | _ => exact reads_noOperand ⟨rfl, rfl, rfl⟩

theorem decodeX3Z5_reads {y : BitVec 3} (h : isPrefix (opXYZ 3 y 5) = false) :
    Reads [opXYZ 3 y 5] rest (decodeX3Z5 (opXYZ 3 y 5) rest) := by
  cases y using field3_cases with
  | k1 => exact reads_oneWord fun _ => ⟨rfl, rfl, rfl⟩
  | k3 | k5 | k7 => cases h
  | _ => exact reads_noOperand ⟨rfl, rfl, rfl⟩

theorem decodeX3_reads {y z : BitVec 3} (h : isPrefix (opXYZ 3 y z) = false) :
    Reads [opXYZ 3 y z] rest (decodeX3 (opXYZ 3 y z) rest) := by
  cases z using field3_cases <;> simp only [decodeX3, fieldY_opXYZ, fieldZ_opXYZ]
  case k0 => exact reads_noOperand ⟨rfl, rfl, by simp [encode]⟩
  case k1 => exact reads_noOperand (decodeX3Z1_whole y)
  case k2 | k4 => exact reads_oneWord fun _ => ⟨rfl, rfl, by simp [encode]⟩
  case k3 => exact decodeX3Z3_reads h
  case k5 => exact decodeX3Z5_reads h
  case k6 => exact reads_oneByte (aluImm_whole y)
  case k7 => exact reads_noOperand ⟨rfl, rfl, rfl⟩

theorem decodeUnprefixed_reads {b : Byte} (h : isPrefix b = false) : Reads [b] rest (decodeUnprefixed b rest) := by
  cases b using opcode_cases with | fields x y z
  cases x using field2_cases <;> simp only [decodeUnprefixed, fieldX_opXYZ]
  case k0 => exact decodeX0_reads y z
  case k1 => exact reads_noOperand (decodeX1_whole y z)
  case k2 => exact reads_noOperand (decodeX2_whole y z)
  case k3 => exact decodeX3_reads h

/-! ### The CB space (R128) and the ED space (R129) -/

theorem decodeCb_whole (b : Byte) : Whole (decodeCb b) [0xCB, b] := by
  cases b using opcode_cases with | fields x y z
  cases z using reg8_cases <;> cases x using field2_cases <;>
    simp only [decodeCb, fieldX_opXYZ, fieldY_opXYZ, fieldZ_opXYZ, reg8Of_code, reg8Of_six]
  case reg.k0 r => exact rotReg_whole y r
  case mem.k0 => exact ⟨rfl, rfl, by simp [encode]⟩
  all_goals exact ⟨rfl, rfl, rfl⟩

theorem decodeIm_whole (y : BitVec 3) : Whole (decodeIm y) [0xED, opXYZ 1 y 6] := by
  cases y using field3_cases <;> exact ⟨rfl, rfl, rfl⟩

theorem decodeEdZ7_whole (y : BitVec 3) : Whole (decodeEdZ7 (opXYZ 1 y 7)) [0xED, opXYZ 1 y 7] := by
  cases y using field3_cases <;> exact ⟨rfl, rfl, rfl⟩

theorem reti_retn_whole (y : BitVec 3) : Whole (if y = 1 then .reti else .retn y) [0xED, opXYZ 1 y 5] := by
  split
  · next hy => subst hy; exact ⟨rfl, rfl, rfl⟩
  · next hy => exact ⟨bne_iff_ne.mpr hy, rfl, rfl⟩

theorem decodeEdX1_reads (y z : BitVec 3) :
    Reads [0xED, opXYZ 1 y z] rest (decodeEdX1 (opXYZ 1 y z) rest) := by
  cases z using field3_cases <;> simp only [decodeEdX1, fieldY_opXYZ, fieldZ_opXYZ]
  case k0 | k1 =>
    cases y using reg8_cases <;> simp only [reg8Of_code, reg8Of_six] <;> exact reads_noOperand ⟨rfl, rfl, rfl⟩
  case k2 =>
    rw [opXYZ_eq_opXPQZ, fieldP_opXPQZ, fieldQ_opXPQZ]
    cases y.getLsbD 0 <;> exact reads_noOperand ⟨rfl, rfl, by simp [encode]⟩
  case k3 =>
    rw [opXYZ_eq_opXPQZ, fieldP_opXPQZ, fieldQ_opXPQZ]
    cases y.getLsbD 0 <;> exact reads_oneWord fun _ => ⟨rfl, rfl, by simp [encode]⟩
  case k4 => exact reads_noOperand ⟨rfl, rfl, rfl⟩
  case k5 => exact reads_noOperand (reti_retn_whole y)
  case k6 => exact reads_noOperand (decodeIm_whole y)
  case k7 => exact reads_noOperand (decodeEdZ7_whole y)

theorem noni_whole {b : Byte} (h : isNoni b = true) : Whole (.noni b) [0xED, b] := ⟨h, rfl, rfl⟩

theorem decodeBlock_whole (y z : BitVec 3) : Whole (decodeBlock (opXYZ 2 y z)) [0xED, opXYZ 2 y z] := by
  cases y using field3_cases <;> cases z using field3_cases <;> exact ⟨rfl, rfl, rfl⟩

theorem decodeEd_reads (b : Byte) : Reads [0xED, b] rest (decodeEd b rest) := by
  cases b using opcode_cases with | fields x y z
  cases x using field2_cases <;> simp only [decodeEd, fieldX_opXYZ]
  case k0 | k3 => exact reads_noOperand (noni_whole (by rw [isNoni_opXYZ]; rfl))
  case k1 => exact decodeEdX1_reads y z
  case k2 => exact reads_noOperand (decodeBlock_whole y z)

end Sys2Proof
end

section
/-!
The DD and FD spaces, and what the decoder as a whole answers (O2, O3).
-/

namespace Sys2Proof

variable {pre rest : List Byte}

/-! ### The affected opcodes (R130) -/

theorem decodeIdxX0_reads (x : IdxReg) {y z : BitVec 3} (h : isAffected (opXYZ 0 y z) = true) :
    Reads [x.prefixByte, opXYZ 0 y z] rest (decodeIdxX0 x (opXYZ 0 y z) rest) := by
  cases z using field3_cases <;> simp only [decodeIdxX0, fieldY_opXYZ, fieldZ_opXYZ]
  case k0 | k7 => exact absurd h (by decide +revert)
  case k1 =>
    rw [opXYZ_eq_opXPQZ] at h ⊢
    rw [fieldP_opXPQZ, fieldQ_opXPQZ]
    cases hq : y.getLsbD 0 with
    | false =>
      have hp : y.extractLsb' 1 2 = 2 := by decide +revert
      rw [hp]
      cases x <;> exact reads_oneWord fun _ => ⟨rfl, rfl, rfl⟩
    | true => cases x <;> exact reads_noOperand ⟨rfl, rfl, by simp [byIdx, encode, idxForm, IdxReg.prefixByte]⟩
  case k2 =>
    obtain rfl | rfl : y = 4 ∨ y = 5 := by decide +revert
    all_goals cases x <;> exact reads_oneWord fun _ => ⟨rfl, rfl, rfl⟩
  case k3 =>
    obtain rfl | rfl : y = 4 ∨ y = 5 := by decide +revert
    all_goals cases x <;> exact reads_noOperand ⟨rfl, rfl, rfl⟩
  case k4 | k5 =>
    obtain rfl | rfl | rfl : y = 4 ∨ y = 5 ∨ y = 6 := by decide +revert
    · exact reads_noOperand ⟨rfl, rfl, rfl⟩
    · exact reads_noOperand ⟨rfl, rfl, rfl⟩
    · cases x <;> exact reads_oneByte fun _ => ⟨rfl, rfl, rfl⟩
  case k6 =>
    obtain rfl | rfl | rfl : y = 4 ∨ y = 5 ∨ y = 6 := by decide +revert
    · exact reads_oneByte fun _ => ⟨rfl, rfl, rfl⟩
    · exact reads_oneByte fun _ => ⟨rfl, rfl, rfl⟩
    · cases x <;> exact reads_twoBytes fun _ _ => ⟨rfl, rfl, rfl⟩

theorem decodeIdxX1_reads (x : IdxReg) {y z : BitVec 3} (h : isAffected (opXYZ 1 y z) = true) :
    Reads [x.prefixByte, opXYZ 1 y z] rest (decodeIdxX1 x (opXYZ 1 y z) rest) := by
  cases y using reg8_cases <;> cases z using reg8_cases <;>
    simp only [decodeIdxX1, fieldY_opXYZ, fieldZ_opXYZ, reg8Of_code, reg8Of_six]
  case reg.reg r r' =>
    obtain ⟨p, hp, -⟩ := exists_hreg_code r
    obtain ⟨p', hp', -⟩ := exists_hreg_code r'
    simp only [← hp, ← hp', hregOf_code] at h ⊢
    rw [isAffected_ldPP] at h
    exact reads_noOperand ⟨h, rfl, rfl⟩
  case reg.mem | mem.reg => cases x <;> exact reads_oneByte fun _ => ⟨rfl, rfl, rfl⟩
  case mem.mem => cases h

theorem getLsbD_zero_opXYZ (x : BitVec 2) (y z : BitVec 3) : (opXYZ x y z).getLsbD 0 = z.getLsbD 0 := by
  decide +revert

theorem decodeIdxX2_reads (x : IdxReg) {y z : BitVec 3} (h : isAffected (opXYZ 2 y z) = true) :
    Reads [x.prefixByte, opXYZ 2 y z] rest (decodeIdxX2 x (opXYZ 2 y z) rest) := by
  have hz : z = 4 ∨ z = 5 ∨ z = 6 := by decide +revert
  simp only [decodeIdxX2, fieldY_opXYZ, fieldZ_opXYZ, getLsbD_zero_opXYZ]
  obtain rfl | rfl | rfl := hz
  · exact reads_noOperand (aluHalf_whole y x .hi)
  · exact reads_noOperand (aluHalf_whole y x .lo)
  · exact reads_oneByte (aluIdx_whole y x)

theorem decodeIdxX3_reads (x : IdxReg) {y z : BitVec 3} (h : isAffected (opXYZ 3 y z) = true) :
    Reads [x.prefixByte, opXYZ 3 y z] rest (decodeIdxX3 x (opXYZ 3 y z) rest) := by
  obtain ⟨rfl, rfl⟩ | ⟨rfl, rfl⟩ | ⟨rfl, rfl⟩ | ⟨rfl, rfl⟩ | ⟨rfl, rfl⟩ : y = 4 ∧ z = 1 ∨ y = 4 ∧ z = 3 ∨
    y = 4 ∧ z = 5 ∨ y = 5 ∧ z = 1 ∨ y = 7 ∧ z = 1 := by decide +revert
  all_goals cases x <;> exact reads_noOperand ⟨rfl, rfl, rfl⟩

theorem decodeAffected_reads (x : IdxReg) {b : Byte} (h : isAffected b = true) :
    Reads [x.prefixByte, b] rest (decodeAffected x b rest) := by
  cases b using opcode_cases with | fields f y z
  cases f using field2_cases <;> simp only [decodeAffected, fieldX_opXYZ]
  case k0 => exact decodeIdxX0_reads x h
  case k1 => exact decodeIdxX1_reads x h
  case k2 => exact decodeIdxX2_reads x h
  case k3 => exact decodeIdxX3_reads x h

/-! ### The other bytes after DD and FD (R131, R285, R286) -/

theorem decodeIdxCb_whole (x : IdxReg) (d b : Byte) : Whole (decodeIdxCb x d b) [x.prefixByte, 0xCB, d, b] := by
  cases b using opcode_cases with | fields f y z
  cases z using reg8_cases <;> cases f using field2_cases <;>
    simp only [decodeIdxCb, fieldX_opXYZ, fieldY_opXYZ, fieldZ_opXYZ, reg8Of_code, reg8Of_six]
  case reg.k0 | mem.k0 => cases x <;> exact ⟨rfl, rfl, by simp [byIdx, encode, idxCbForm, IdxReg.prefixByte]⟩
  all_goals cases x <;> exact ⟨rfl, rfl, rfl⟩

theorem encode_ne_nil (i : Instr) : encode i ≠ [] := by
  cases i <;> exact List.cons_ne_nil _ _

/-- What an opcode on which DD and FD have no effect stands for is unaffected (R130). -/
theorem unaffected_of_encode_append {i : Instr} {b : Byte} {rest' : List Byte} (hb : passesPrefix b = true)
    (h : encode i ++ rest' = b :: rest) : i.unaffected = true := by
  obtain ⟨c, operands, henc⟩ := List.exists_cons_of_ne_nil (encode_ne_nil i)
  rw [henc] at h
  obtain rfl : c = b := List.head_eq_of_cons_eq h
  rw [unaffected_eq_passesPrefix, henc]
  exact hb

/-- The delay form around what the decoder reads after DD or FD (R286). -/
theorem Reads.ddFd {b : Byte} {d : Decoded} (x : IdxReg) (hb : passesPrefix b = true) (h : Reads [b] rest d) :
    Reads [x.prefixByte, b] rest (d.map fun p => (.ddFd x p.1, p.2)) := by
  cases d with
  | none => exact h
  | some p =>
    obtain ⟨-, -, henc⟩ := h
    exact ⟨unaffected_of_encode_append hb henc, rfl, congrArg (x.prefixByte :: ·) henc⟩

/-! ### The decoder, by the first byte (R132) -/

theorem isPrefix_iff (b : Byte) : isPrefix b = true ↔ b = 0xCB ∨ b = 0xED ∨ ∃ x : IdxReg, b = x.prefixByte := by
  have hidx : (∃ x : IdxReg, b = x.prefixByte) ↔ b = 0xDD ∨ b = 0xFD :=
    ⟨fun ⟨x, hx⟩ => by cases x <;> simp [hx, IdxReg.prefixByte], fun h => h.elim (⟨.ix, ·⟩) (⟨.iy, ·⟩)⟩
  rw [hidx]
  simp only [isPrefix, cancelsPrefix, Bool.or_eq_true, beq_iff_eq]
  rw [or_comm (a := b = 0xDD), or_assoc]

theorem decode_unprefixed {b : Byte} (h : isPrefix b = false) : decode (b :: rest) = decodeUnprefixed b rest := by
  simp_all [isPrefix, cancelsPrefix, decode]

theorem decode_prefixByte (x : IdxReg) : decode (x.prefixByte :: rest) = decodeIdx x rest := by
  cases x <;> rfl

theorem decodeIdx_ignored (x : IdxReg) {b : Byte} (h : cancelsPrefix b = true) :
    decodeIdx x (b :: rest) = some (.ignoredPrefix x, b :: rest) := if_pos h

/-- Before an opcode byte: the affected ones have a substituted form (R130), the others get the delay form (R286). -/
theorem decodeIdx_opcode (x : IdxReg) {b : Byte} (hb : isPrefix b = false) :
    decodeIdx x (b :: rest) = if isAffected b then decodeAffected x b rest
      else (decodeUnprefixed b rest).map fun p => (.ddFd x p.1, p.2) := by
  obtain ⟨hcb, hcancel⟩ := (isPrefix_eq_false_iff b).mp hb
  exact (if_neg (Bool.eq_false_iff.mp hcancel)).trans (if_neg hcb)

/-- A good answer for all of `bs`: a well-formed instruction of exactly the bytes taken. A term for a byte that stands alone, and
no answer at all, come only of fewer than four bytes. -/
def Answers (bs : List Byte) : Decoded → Prop
  | some (i, rest) => i.wellFormed = true ∧ (i.isLonePrefix = true → bs.length < 4) ∧ encode i ++ rest = bs
  | none => bs.length < 4

/-- At most two bytes come before the operands. -/
theorem Reads.answers {d : Decoded} (h : Reads pre rest d) (hpre : pre.length ≤ 2) : Answers (pre ++ rest) d := by
  cases d with
  | none =>
    have hrest : rest.length < 2 := h
    rw [Answers, List.length_append]
    omega
  | some p =>
    obtain ⟨hwf, hlone, henc⟩ := h
    exact ⟨hwf, fun h => absurd (hlone.symm.trans h) Bool.false_ne_true, henc⟩

theorem Whole.answers {i : Instr} {bytes : List Byte} (h : Whole i bytes) :
    Answers (bytes ++ rest) (some (i, rest)) := by
  obtain ⟨hwf, hlone, rfl⟩ := h
  exact ⟨hwf, fun h => absurd (hlone.symm.trans h) Bool.false_ne_true, rfl⟩

theorem decodeIdx_opcode_answers (x : IdxReg) {b : Byte} (hb : isPrefix b = false) :
    Answers (x.prefixByte :: b :: rest) (decodeIdx x (b :: rest)) := by
  rw [decodeIdx_opcode x hb]
  cases haff : isAffected b with
  | true => exact (decodeAffected_reads x haff).answers (Nat.le_refl 2)
  | false => exact ((decodeUnprefixed_reads hb).ddFd x ((passesPrefix_iff b).mpr ⟨hb, haff⟩)).answers (Nat.le_refl 2)

theorem decodeIdx_cb_answers (x : IdxReg) : ∀ bs, Answers (x.prefixByte :: 0xCB :: bs) (decodeIdx x (0xCB :: bs))
  | [] => by cases x <;> exact ⟨rfl, fun _ => by decide, rfl⟩
  | [_] => Nat.lt_succ_self 3
  | d :: op :: _ => (decodeIdxCb_whole x d op).answers

theorem decodeIdx_answers (x : IdxReg) : ∀ bs, Answers (x.prefixByte :: bs) (decodeIdx x bs)
  | [] => by cases x <;> exact ⟨rfl, fun _ => by decide, rfl⟩
  | b :: rest => by
    cases hcancel : cancelsPrefix b with
    | true =>
      rw [decodeIdx_ignored x hcancel]
      exact Whole.answers (bytes := [x.prefixByte]) ⟨rfl, rfl, rfl⟩
    | false =>
      by_cases hcb : b = 0xCB
      · subst hcb
        exact decodeIdx_cb_answers x rest
      · exact decodeIdx_opcode_answers x ((isPrefix_eq_false_iff b).mpr ⟨hcb, hcancel⟩)

theorem decode_answers : ∀ bs, Answers bs (decode bs)
  | [] => Nat.zero_lt_succ 3
  | b :: rest => by
    cases hb : isPrefix b with
    | false =>
      rw [decode_unprefixed hb]
      exact (decodeUnprefixed_reads hb).answers (Nat.le_succ 1)
    | true =>
      obtain rfl | rfl | ⟨x, rfl⟩ := (isPrefix_iff b).mp hb
      · match rest with
        | [] => exact ⟨rfl, fun _ => by decide, rfl⟩
        | op :: rest => exact (decodeCb_whole op).answers
      · match rest with
        | [] => exact ⟨rfl, fun _ => by decide, rfl⟩
        | op :: rest => exact (decodeEd_reads op).answers (Nat.le_refl 2)
      · rw [decode_prefixByte]
        exact decodeIdx_answers x rest

end Sys2Proof
end

section
/-!
The encoder's round trip through the decoder: the spaces whose opcode tells the operands, then a case split on the instruction.
-/

namespace Sys2Proof

variable {rest : List Byte}

/-- The word of an instruction, as the decoder reads it back (R84). -/
theorem oneWord_wordBytes (k : Word → Instr) (nn : Word) (rest : List Byte) :
    oneWord k (wordBytes nn ++ rest) = some (k nn, rest) := by
  simp [oneWord, wordBytes]

/-! ### The prefixed spaces -/

theorem decode_cb (op : Byte) : decode (0xCB :: op :: rest) = some (decodeCb op, rest) := rfl

theorem decode_idxCbForm (x : IdxReg) (d op : Byte) :
    decode (idxCbForm x d op ++ rest) = some (decodeIdxCb x d op, rest) := by
  cases x <;> rfl

theorem decodeEd_noni {op : Byte} (h : isNoni op = true) : decodeEd op rest = some (.noni op, rest) := by
  cases op using opcode_cases with | fields x y z
  rw [isNoni_opXYZ] at h
  cases x using field2_cases
  case k0 | k3 => simp [decodeEd, noOperand]
  case k1 =>
    obtain ⟨rfl, rfl | rfl⟩ : z = 7 ∧ (y = 6 ∨ y = 7) := by decide +revert
    all_goals rfl
  case k2 =>
    have hblock : decodeBlock (opXYZ 2 y z) = .noni (opXYZ 2 y z) := by decide +revert
    rw [decodeEd, fieldX_opXYZ]
    exact congrArg (noOperand · rest) hblock

theorem reg8Of_hreg_code (p : HReg) : ∃ r, reg8Of p.code = some r := by
  cases p <;> exact ⟨_, rfl⟩

/-- LD p,p' with a half among its operands (R168). -/
theorem decode_ldPP (x : IdxReg) {p p' : HReg} (h : (p.isHalf || p'.isHalf) = true) :
    decode (encode (.ldPP x p p') ++ rest) = some (.ldPP x p p', rest) := by
  obtain ⟨r, hr⟩ := reg8Of_hreg_code p
  obtain ⟨r', hr'⟩ := reg8Of_hreg_code p'
  rw [encode, idxForm, List.cons_append, List.cons_append, decode_prefixByte,
    decodeIdx_opcode x (isPrefix_opXYZ_one _ _), isAffected_ldPP, if_pos h]
  simp [decodeAffected, decodeIdxX1, hr, hr', noOperand]

/-- The delay form around an unaffected instruction is read back if that instruction is (R286). -/
theorem decode_ddFd (x : IdxReg) {op : Instr} (h : op.unaffected = true)
    (hop : decode (encode op ++ rest) = some (op, rest)) :
    decode (encode (.ddFd x op) ++ rest) = some (.ddFd x op, rest) := by
  obtain ⟨b, operands, henc⟩ := List.exists_cons_of_ne_nil (encode_ne_nil op)
  have hpass : passesPrefix b = true := by rw [unaffected_eq_passesPrefix, henc] at h; exact h
  obtain ⟨hb, haff⟩ := (passesPrefix_iff b).mp hpass
  rw [henc, List.cons_append, decode_unprefixed hb] at hop
  rw [encode, henc, List.cons_append, List.cons_append, decode_prefixByte, decodeIdx_opcode x hb, haff, hop]
  rfl

/-- An unaffected instruction is a whole one. -/
theorem whole_of_unaffected {i : Instr} (h : i.unaffected = true) :
    i.wellFormed = true ∧ i.isLonePrefix = false ∧ i.isIgnoredPrefix = false := by
  cases i with
  | noni | retn | ldPP | ddFd | ignoredPrefix | prefixCb | prefixDd | prefixEd | prefixFd | prefixDdCb | prefixFdCb =>
    cases h
  | _ => exact ⟨rfl, rfl, rfl⟩

/-! ### The round trip (R132, R134) -/

/-- The cases go by what the opcode holds: nothing, a table's entry, a field of bits, and then by the word after it. -/
theorem decode_encode {i : Instr} (hwf : i.wellFormed = true) (hlone : i.isLonePrefix = false)
    (hign : i.isIgnoredPrefix = false) : decode (encode i ++ rest) = some (i, rest) := by
  induction i with
  | prefixCb | prefixDd | prefixEd | prefixFd | prefixDdCb | prefixFdCb => cases hlone
  | ignoredPrefix => cases hign
  | ddFd x op ih =>
    have hop : op.unaffected = true := hwf
    obtain ⟨hwf, hlone, hign⟩ := whole_of_unaffected hop
    exact decode_ddFd x hop (ih hwf hlone hign)
  | noni op => exact decodeEd_noni hwf
  | incSs p | addHlSs p | decSs p | popQq p | pushQq p | sbcHlSs p | adcHlSs p | addIxPp p | addIyPp p =>
    cases p <;> rfl
  | incR r | decR r | ldRN r | ldRMHl r | ldMHlR r | addAR r | adcAR r | subR r | sbcAR r | andR r | xorR r | orR r
  | cpR r | rlcR r | rrcR r | rlR r | rrR r | slaR r | sraR r | sllR r | srlR r | inRC r | outCR r
  | ldRMIx r | ldMIxR r | ldRMIy r | ldMIyR r => cases r <;> rfl
  | ldRR r r' => cases r <;> cases r' <;> rfl
  | jrCc cc | retCc cc => cases cc <;> rfl
  | rst y | neg y => cases y using field3_cases <;> rfl
  | retn y =>
    cases y using field3_cases with
    | k1 => cases hwf
    | _ => rfl
  | im0 k => cases k using field2_cases <;> rfl
  | im1 k | im2 k => obtain rfl | rfl := k.eq_zero_or_eq_one <;> rfl
  | rotMHl | bitR | bitMHl | resR | resMHl | setR | setMHl =>
    exact (decode_cb _).trans (by simp [decodeCb])
  | rotMIxR | rotMIx | bitMIx | resMIxR | resMIx | setMIxR | setMIx | rotMIyR | rotMIy | bitMIy | resMIyR | resMIy
  | setMIyR | setMIy => exact (decode_idxCbForm _ _ _).trans (by simp [decodeIdxCb, byIdx])
  | incHalf x h | decHalf x h | ldHalfN x h | addAHalf x h | adcAHalf x h | subHalf x h | sbcAHalf x h
  | andHalf x h | xorHalf x h | orHalf x h | cpHalf x h => cases x <;> cases h <;> rfl
  | ldPP x p p' => exact decode_ldPP x hwf
  | ldDdNn p nn | ldMNnDd p nn | ldDdMNn p nn => cases p <;> exact oneWord_wordBytes _ nn rest
  | jpCcNn cc nn | callCcNn cc nn => cases cc <;> exact oneWord_wordBytes _ nn rest
  | ldMNnHl nn | ldHlMNn nn | ldMNnA nn | ldAMNn nn | jpNn nn | callNn nn | ldIxNn nn | ldMNnIx nn | ldIxMNn nn
  | ldIyNn nn | ldMNnIy nn | ldIyMNn nn => exact oneWord_wordBytes _ nn rest
  | _ => rfl

end Sys2Proof
end

section
/-!
Decoding and encoding, the statements of 30_encoding.md (O1 to O4).
-/

namespace Sys2Proof

/-- Settles O1: the round trip of a whole instruction, the ignored DD or FD byte, and the terms of bytes that stand alone. -/
theorem decodeOfEncode : Obligations.DecodeOfEncode := by
  refine ⟨fun i rest hwf hlone hign => decode_encode hwf hlone hign, fun x b rest hb => ?ignored, fun i hi => ?lone⟩
  case ignored => exact (decode_prefixByte x).trans (decodeIdx_ignored x hb)
  case lone =>
    cases i with
    | prefixCb | prefixDd | prefixEd | prefixFd | prefixDdCb | prefixFdCb => rfl
    | _ => cases hi

/-- Settles O2: four bytes are enough, and an instruction has at least one. -/
theorem decoderTotal : Obligations.DecoderTotal := by
  intro b0 b1 b2 b3
  have hans := decode_answers [b0, b1, b2, b3]
  cases hd : decode [b0, b1, b2, b3] with
  | none =>
    rw [hd] at hans
    exact absurd hans (Nat.lt_irrefl 4)
  | some p =>
    obtain ⟨i, rest⟩ := p
    rw [hd] at hans
    obtain ⟨hwf, hlone, henc⟩ := hans
    have hlen : (encode i).length + rest.length = 4 := by rw [← List.length_append, henc]; rfl
    have hpos := List.length_pos_iff.mpr (encode_ne_nil i)
    exact ⟨i, rest, rfl, hwf, Bool.eq_false_iff.mpr fun h => Nat.lt_irrefl 4 (hlone h), by omega⟩

/-- Settles O3: the decoder takes exactly the bytes of what it answers. -/
theorem encodeOfDecode : Obligations.EncodeOfDecode := by
  intro bs rest i h
  have hans := decode_answers bs
  rw [h] at hans
  obtain ⟨-, -, henc⟩ := hans
  exact henc

/-- Settles O4: the decoder runs on each of the words. -/
theorem wordsDecode : Obligations.WordsDecode :=
  ⟨rfl, rfl, rfl, rfl, rfl, rfl, rfl, rfl, rfl, rfl, rfl, rfl, rfl⟩

end Sys2Proof
end

section
/-!
How an instruction's statement is proved: its bytes from the round trip, and its step as a change of the module's registers with
or without a byte stored.
-/

namespace Sys2Proof.Machine

/-! ### Encodings -/

/-- The decoder's part of an encoding is the round trip (R132). -/
theorem encoded_of_whole {i : Instr} {bytes : List Byte} {m1 : Nat} (h : Whole i bytes)
    (hign : i.isIgnoredPrefix = false) (hm1 : m1Count i = m1) : Encoded i bytes m1 := by
  obtain ⟨hwf, hlone, rfl⟩ := h
  exact ⟨rfl, fun _ => decode_encode hwf hlone hign, hm1⟩

theorem loByte_eq_ofNat (w : Word) : loByte w = BitVec.ofNat 8 w.toNat := rfl

theorem hiByte_eq_ofNat (w : Word) : hiByte w = BitVec.ofNat 8 (w.toNat / 256) := by
  simp [hiByte, BitVec.extractLsb', Nat.shiftRight_eq_div_pow]

/-- The encoder's two bytes of a word are those of the statements (R84). -/
theorem wordBytes_eq_lowHigh (nn : Word) : wordBytes nn = lowHigh nn := by
  rw [wordBytes, lowHigh, loByte_eq_ofNat, hiByte_eq_ofNat]

/-! ### Register writes -/

/-- A change of a module that leaves the memory map alone, and neither reads nor writes what a step's bookkeeping writes. -/
structure RegisterWrite (g : Module → Module) : Prop where
  port7FFD : ∀ c, (g c).port7FFD = c.port7FFD
  trdos : ∀ c, (g c).trdos = c.trdos
  stepped : ∀ c x, (g c).stepped x = g (c.stepped x)

namespace RegisterWrite

variable {g : Module → Module}

/-- The counter is part of the bookkeeping. -/
theorem t (hg : RegisterWrite g) (c : Module) : (g c).t = c.t :=
  (congrArg Module.t (hg.stepped c c)).symm

/-- The module at the end of the step is the write done to the module with the step's bookkeeping. -/
theorem ended (hg : RegisterWrite g) (c : Module) (n : Nat) (q : Byte) :
    ((g c).spend n).endStep q = g (c.stepped (((g c).spend n).endStep q)) := by
  rw [← hg.stepped]; rfl

theorem unchanged : RegisterWrite fun c => c := ⟨fun _ => rfl, fun _ => rfl, fun _ _ => rfl⟩

theorem memptr (w : Word) : RegisterWrite fun c => { c with memptr := w } := ⟨fun _ => rfl, fun _ => rfl, fun _ _ => rfl⟩

theorem i (v : Byte) : RegisterWrite fun c => { c with i := v } := ⟨fun _ => rfl, fun _ => rfl, fun _ _ => rfl⟩

theorem r (v : Byte) : RegisterWrite fun c => { c with r := v } := ⟨fun _ => rfl, fun _ => rfl, fun _ _ => rfl⟩

theorem setReg8 (r : Reg8) (v : Byte) : RegisterWrite (·.setReg8 r v) :=
  ⟨fun _ => by simp, fun _ => by simp, fun _ _ => by cases r <;> rfl⟩

theorem setHalf (x : IdxReg) (h : Half) (v : Byte) : RegisterWrite (·.setHalf x h v) :=
  ⟨fun _ => by simp, fun _ => by simp, fun _ _ => by cases h <;> cases x <;> rfl⟩

theorem setHreg (x : IdxReg) (p : HReg) (v : Byte) : RegisterWrite (·.setHreg x p v) :=
  ⟨fun _ => by simp, fun _ => by simp, fun _ _ => by cases p <;> cases x <;> rfl⟩

theorem comp {g' : Module → Module} (hg' : RegisterWrite g') (hg : RegisterWrite g) : RegisterWrite fun c => g' (g c) :=
  ⟨fun c => (hg'.port7FFD _).trans (hg.port7FFD c), fun c => (hg'.trdos _).trans (hg.trdos c),
    fun c x => (hg'.stepped _ x).trans (congrArg g' (hg.stepped c x))⟩

end RegisterWrite

/-! ### Steps that write no flag (R430) -/

/-- A step that writes registers and nothing else. -/
theorem runs_registerWrite {i : Instr} {n : Nat} (g : State → Module → Module) (hg : ∀ s, RegisterWrite (g s))
    (he : ∀ s, exec i s = s.done n (g s s.core)) :
    Runs i n false fun s t => Quiet s t ∧ t.core = g s (s.core.stepped t.core) := by
  refine runs_done (fun s => s) (fun s => g s s.core) he (fun s => (hg s).t _) fun s =>
    ⟨quiet_setCore s _ ((hg s).port7FFD _) ((hg s).trdos _), ?_⟩
  rw [State.core_setCore]
  exact (hg s).ended s.core n 0

/-- A step that stores a byte and writes registers. -/
theorem runs_store {i : Instr} {n : Nat} (a : State → Word) (v : State → Byte) (g : State → Module → Module)
    (hg : ∀ s, RegisterWrite (g s))
    (he : ∀ s, exec i s = (s.writeByte (a s) (v s)).done n (g s (s.writeByte (a s) (v s)).core)) :
    Runs i n false fun s t => Stores s t (a s) (v s) ∧ t.core = g s (s.core.stepped t.core) := by
  simp only [State.core_writeByte] at he
  refine runs_done (fun s => s.writeByte (a s) (v s)) (fun s => g s s.core) he (fun s => (hg s).t _) fun s =>
    ⟨stores_writeByte s _ _ _ ((hg s).port7FFD _) ((hg s).trdos _), ?_⟩
  rw [State.core_setCore]
  exact (hg s).ended s.core n 0

end Sys2Proof.Machine
end

section
/-!
The 8-bit load group, the statements of 40_load8.md (O34 to O37).
-/

namespace Sys2Proof.Machine

/-! ### The meanings the forms share -/

/-- LD r,(xy+d) (R153). -/
theorem runs_loadIndexed {i : Instr} (x : IdxReg) (r : Reg8) (d : Byte) (he : ∀ s, exec i s = loadIndexed x r d s) :
    Runs i 19 false fun s t => Quiet s t ∧
      t.core = { (s.core.stepped t.core).setReg8 r (s.readByte (s.core.ea x d)) with memptr := s.core.ea x d } :=
  runs_registerWrite (fun s c => { c.setReg8 r (s.readByte (s.core.ea x d)) with memptr := s.core.ea x d })
    (fun _ => (RegisterWrite.memptr _).comp (.setReg8 r _)) he

/-- LD A,(BC), LD A,(DE) and LD A,(nn) (R158 to R160). -/
theorem runs_loadAFrom {i : Instr} {n : Nat} (a : State → Word) (he : ∀ s, exec i s = loadAFrom (a s) n s) :
    Runs i n false fun s t => Quiet s t ∧
      t.core = { s.core.stepped t.core with a := s.readByte (a s), memptr := a s + 1 } :=
  runs_registerWrite (fun s c => { c with a := s.readByte (a s), memptr := a s + 1 })
    (fun _ => (RegisterWrite.memptr _).comp (.setReg8 .a _)) he

/-- LD (xy+d),r and LD (xy+d),n (R155, R157). -/
theorem runs_storeIndexed {i : Instr} (x : IdxReg) (d : Byte) (v : State → Byte)
    (he : ∀ s, exec i s = storeIndexed x d (v s) s) :
    Runs i 19 false fun s t => Stores s t (s.core.ea x d) (v s) ∧
      t.core = { s.core.stepped t.core with memptr := s.core.ea x d } :=
  runs_store (fun s => s.core.ea x d) v (fun s c => { c with memptr := s.core.ea x d })
    (fun _ => .memptr _) he

/-- LD (BC),A, LD (DE),A and LD (nn),A; `low` is the low byte of MEMPTR, the address's plus one without carry (R161 to R163). -/
theorem runs_storeATo {i : Instr} {n : Nat} (a : State → Word) (low : State → Byte)
    (hlow : ∀ s, loByte (a s) + 1 = low s) (he : ∀ s, exec i s = storeATo (a s) n s) :
    Runs i n false fun s t => Stores s t (a s) s.core.a ∧
      t.core = { s.core.stepped t.core with memptr := pair s.core.a (low s) } := by
  simp only [← hlow]
  exact runs_store a (fun s => s.core.a) (fun s c => { c with memptr := pair s.core.a (loByte (a s) + 1) })
    (fun _ => .memptr _) he

/-- The low byte of an address plus one, from the address as a number. -/
theorem loByte_add_one (nn : Word) : loByte nn + 1 = BitVec.ofNat 8 (nn.toNat % 256 + 1) := by
  rw [loByte_eq_ofNat]
  apply BitVec.eq_of_toNat_eq
  simp

/-- The flags of LD A,I and LD A,R (R164, R165). -/
theorem ldAirFlags_spec (v f : Byte) (iff2 : Bool) :
    FlagsSZXY v (ldAirFlags v f iff2) ∧ flagH (ldAirFlags v f iff2) = false ∧ flagP (ldAirFlags v f iff2) = iff2 ∧
      flagN (ldAirFlags v f iff2) = false ∧ flagC (ldAirFlags v f iff2) = flagC f := by
  simp [ldAirFlags, FlagsSZXY, beq_bits]

/-- LD A,I and LD A,R, which leave their own mark (R164, R165, R430). -/
theorem loadsAFrom_loadAFromIR (v : Module → Byte) (s : State) :
    ∃ t, loadAFromIR (v s.core) s = .next t ∧ LoadsAFrom v s t := by
  refine ⟨_, rfl, quiet_setCore s _ rfl rfl, ?_⟩
  rw [State.core_setCore]
  exact ⟨rfl, rfl, rfl, rfl, rfl, rfl, ldAirFlags_spec (v s.core) s.core.f s.core.iff2⟩

/-! ### The statements -/

/-- Settles O34: each form is one register write. -/
theorem loadRegister : Obligations.LoadRegister := by
  refine ⟨
    fun r r' => ⟨?ldRR, runs_registerWrite (fun s c => c.setReg8 r (s.core.reg8 r')) (fun _ => .setReg8 r _) fun _ => rfl⟩,
    fun r n => ⟨?ldRN, runs_registerWrite (fun _ c => c.setReg8 r n) (fun _ => .setReg8 r n) fun _ => rfl⟩,
    fun x p p' hhalf => ⟨?ldPP,
      runs_registerWrite (fun s c => c.setHreg x p (s.core.hreg x p')) (fun _ => .setHreg x p _) fun _ => rfl⟩,
    fun x h n => ⟨?ldHalfN, runs_registerWrite (fun _ c => c.setHalf x h n) (fun _ => .setHalf x h n) fun _ => rfl⟩⟩
  case ldRR => cases r <;> cases r' <;> exact encoded_of_whole ⟨rfl, rfl, rfl⟩ rfl rfl
  case ldRN => cases r <;> exact encoded_of_whole ⟨rfl, rfl, rfl⟩ rfl rfl
  case ldPP =>
    have hbytes : encode (.ldPP x p p') = [x.prefixByte, op8 (0x40 + 8 * p.code.toNat + p'.code.toNat)] := by
      cases p <;> cases p' <;> rfl
    exact encoded_of_whole ⟨(Bool.or_eq_true _ _).mpr hhalf, rfl, hbytes⟩ rfl (by cases x <;> rfl)
  case ldHalfN => cases x <;> cases h <;> exact encoded_of_whole ⟨rfl, rfl, rfl⟩ rfl rfl

/-- Settles O35: each form is a register write of the byte read, MEMPTR with it where the rule says so. -/
theorem loadByteFromMemory : Obligations.LoadByteFromMemory := by
  refine ⟨
    fun r => ⟨?ldRMHl,
      runs_registerWrite (fun s c => c.setReg8 r (s.readByte s.core.hl)) (fun _ => .setReg8 r _) fun _ => rfl⟩,
    fun r d => ⟨?ldRMIx, runs_loadIndexed .ix r d fun _ => rfl⟩,
    fun r d => ⟨?ldRMIy, runs_loadIndexed .iy r d fun _ => rfl⟩,
    ⟨?ldAMBc, runs_loadAFrom (fun s => s.core.bc) fun _ => rfl⟩,
    ⟨?ldAMDe, runs_loadAFrom (fun s => s.core.de) fun _ => rfl⟩,
    fun nn => ⟨?ldAMNn, runs_loadAFrom (fun _ => nn) fun _ => rfl⟩⟩
  case ldRMHl | ldRMIx | ldRMIy => cases r <;> exact encoded_of_whole ⟨rfl, rfl, rfl⟩ rfl rfl
  case ldAMBc | ldAMDe => exact encoded_of_whole ⟨rfl, rfl, rfl⟩ rfl rfl
  case ldAMNn => exact encoded_of_whole ⟨rfl, rfl, congrArg _ (wordBytes_eq_lowHigh nn)⟩ rfl rfl

/-- Settles O36: each form stores one byte, and MEMPTR is the only register it may write. -/
theorem storeByte : Obligations.StoreByte := by
  have hlow (h l : Byte) : loByte (pair h l) + 1 = l + 1 := congrArg (· + 1) (loByte_pair h l)
  refine ⟨
    fun r => ⟨?ldMHlR,
      runs_store (fun s => s.core.hl) (fun s => s.core.reg8 r) (fun _ c => c) (fun _ => .unchanged) fun _ => rfl⟩,
    fun n => ⟨?ldMHlN, runs_store (fun s => s.core.hl) (fun _ => n) (fun _ c => c) (fun _ => .unchanged) fun _ => rfl⟩,
    fun r d => ⟨?ldMIxR, runs_storeIndexed .ix d (fun s => s.core.reg8 r) fun _ => rfl⟩,
    fun r d => ⟨?ldMIyR, runs_storeIndexed .iy d (fun s => s.core.reg8 r) fun _ => rfl⟩,
    fun d n => ⟨?ldMIxN, runs_storeIndexed .ix d (fun _ => n) fun _ => rfl⟩,
    fun d n => ⟨?ldMIyN, runs_storeIndexed .iy d (fun _ => n) fun _ => rfl⟩,
    ⟨?ldMBcA, runs_storeATo (fun s => s.core.bc) (fun s => s.core.c + 1) (fun _ => hlow _ _) fun _ => rfl⟩,
    ⟨?ldMDeA, runs_storeATo (fun s => s.core.de) (fun s => s.core.e + 1) (fun _ => hlow _ _) fun _ => rfl⟩,
    fun nn => ⟨?ldMNnA, runs_storeATo (fun _ => nn) _ (fun _ => loByte_add_one nn) fun _ => rfl⟩⟩
  case ldMHlR | ldMIxR | ldMIyR => cases r <;> exact encoded_of_whole ⟨rfl, rfl, rfl⟩ rfl rfl
  case ldMHlN | ldMIxN | ldMIyN | ldMBcA | ldMDeA => exact encoded_of_whole ⟨rfl, rfl, rfl⟩ rfl rfl
  case ldMNnA => exact encoded_of_whole ⟨rfl, rfl, congrArg _ (wordBytes_eq_lowHigh nn)⟩ rfl rfl

/-- Settles O37: the two loads of A share their flags and their mark, the two loads from A are register writes. -/
theorem interruptAndRefreshLoads : Obligations.InterruptAndRefreshLoads := by
  refine ⟨
    ⟨?ldAI, loadsAFrom_loadAFromIR fun c => c.i⟩,
    ⟨?ldAR, loadsAFrom_loadAFromIR fun c => c.r⟩,
    ⟨?ldIA, runs_registerWrite (fun s c => { c with i := s.core.a }) (fun _ => .i _) fun _ => rfl⟩,
    ⟨?ldRA, runs_registerWrite (fun s c => { c with r := s.core.a }) (fun _ => .r _) fun _ => rfl⟩⟩
  case ldAI | ldAR | ldIA | ldRA => exact encoded_of_whole ⟨rfl, rfl, rfl⟩ rfl rfl

end Sys2Proof.Machine
end

section
/-!
The 16-bit load and stack group, the statements of 41_load16.md (O38 to O40).
-/

namespace Sys2Proof.Machine

/-! ### Register writes of a word -/

namespace RegisterWrite

theorem sp (w : Word) : RegisterWrite fun c => { c with sp := w } := ⟨fun _ => rfl, fun _ => rfl, fun _ _ => rfl⟩

theorem setRp (p : Rp) (w : Word) : RegisterWrite (·.setRp p w) :=
  ⟨fun _ => by simp, fun _ => by simp, fun _ _ => by cases p <;> rfl⟩

theorem setRp2 (p : Rp2) (w : Word) : RegisterWrite (·.setRp2 p w) :=
  ⟨fun _ => by simp, fun _ => by simp, fun _ _ => by cases p <;> rfl⟩

theorem setIdx (x : IdxReg) (w : Word) : RegisterWrite (·.setIdx x w) :=
  ⟨fun _ => by simp, fun _ => by simp, fun _ _ => by cases x <;> rfl⟩

end RegisterWrite

/-! ### Steps that store a word and write no flag (R430) -/

/-- A step that stores the two bytes of a word, by whatever `s1`, and writes registers. -/
theorem runs_storeTwo {i : Instr} {n : Nat} (s1 : State → State) (a v : State → Word) (g : State → Module → Module)
    (hg : ∀ s, RegisterWrite (g s))
    (hstores : ∀ s c, c.port7FFD = s.core.port7FFD → c.trdos = s.core.trdos →
      StoresTwo s ((s1 s).setCore c) (a s) (loByte (v s)) (hiByte (v s)))
    (he : ∀ s, exec i s = (s1 s).done n (g s s.core)) :
    Runs i n false fun s t => StoresTwo s t (a s) (loByte (v s)) (hiByte (v s)) ∧
      t.core = g s (s.core.stepped t.core) := by
  refine runs_done s1 (fun s => g s s.core) he (fun s => (hg s).t _) fun s =>
    ⟨hstores s _ ((hg s).port7FFD _) ((hg s).trdos _), ?_⟩
  rw [State.core_setCore]
  exact (hg s).ended s.core n 0

/-! ### The meanings the forms share -/

/-- What a pop reads and what it leaves of the module (R17). -/
theorem popValue_core_popped (s : State) :
    s.popValue = wordAt s s.core.sp ∧ s.popped.core = { s.core with sp := s.core.sp + 2 } := by
  obtain ⟨hvalue, hpopped⟩ := State.pop_spec s
  exact ⟨hvalue, by rw [hpopped, State.core_setCore]⟩

/-- A load of a register with a word from memory, MEMPTR one past its address (R182 to R184). -/
theorem runs_loadWordFrom {i : Instr} {n : Nat} (nn : Word) (g : Word → Module → Module) (hg : ∀ v, RegisterWrite (g v))
    (he : ∀ s, exec i s = s.done n { g (s.readWord nn) s.core with memptr := nn + 1 }) :
    Runs i n false fun s t => Quiet s t ∧
      t.core = { g (wordAt s nn) (s.core.stepped t.core) with memptr := nn + 1 } :=
  runs_registerWrite (fun s c => { g (wordAt s nn) c with memptr := nn + 1 })
    (fun _ => (RegisterWrite.memptr _).comp (hg _)) he

/-- A pop into a register other than SP, so that the order of its two writes does not matter (R192, R193). -/
theorem runs_pop {i : Instr} {n : Nat} (g : Word → Module → Module) (hg : ∀ v, RegisterWrite (g v))
    (hsp : ∀ v c w, g v { c with sp := w } = { g v c with sp := w })
    (he : ∀ s, exec i s = s.done n (g s.popValue s.popped.core)) :
    Runs i n false fun s t => Quiet s t ∧
      t.core = { g (wordAt s s.core.sp) (s.core.stepped t.core) with sp := s.core.sp + 2 } := by
  refine runs_registerWrite (fun s c => { g (wordAt s s.core.sp) c with sp := s.core.sp + 2 })
    (fun _ => (RegisterWrite.sp _).comp (hg _)) fun s => ?_
  obtain ⟨hvalue, hcore⟩ := popValue_core_popped s
  rw [he, hvalue, hcore, hsp]

/-- LD (nn),HL and the other stores of a word to an absolute address (R185 to R187). -/
theorem runs_storeWordTo {i : Instr} {n : Nat} (nn : Word) (v : State → Word)
    (he : ∀ s, exec i s = storeWordTo nn (v s) n s) :
    Runs i n false fun s t => StoresTwo s t nn (loByte (v s)) (hiByte (v s)) ∧
      t.core = { s.core.stepped t.core with memptr := nn + 1 } :=
  runs_storeTwo (fun s => s.writeWord nn (v s)) (fun _ => nn) v (fun _ c => { c with memptr := nn + 1 })
    (fun _ => .memptr _) (fun s c => storesTwo_writeWord s nn (v s) c)
    fun s => by rw [he, storeWordTo, State.core_writeWord]

/-- The pushes (R190, R191). -/
theorem runs_push {i : Instr} {n : Nat} (v : State → Word) (he : ∀ s, exec i s = pushStep (v s) n s) :
    Runs i n false fun s t => StoresTwo s t (s.core.sp - 2) (loByte (v s)) (hiByte (v s)) ∧
      t.core = { s.core.stepped t.core with sp := s.core.sp - 2 } :=
  runs_storeTwo (fun s => s.push (v s)) (fun s => s.core.sp - 2) v (fun s c => { c with sp := s.core.sp - 2 })
    (fun _ => .sp _) (fun s c => storesTwo_push s (v s) c)
    fun s => by rw [he, pushStep, State.core_push]

/-! ### The statements -/

/-- Settles O38: each form is one register write of a word, MEMPTR with it where the word comes from memory. -/
theorem loadPair : Obligations.LoadPair := by
  refine ⟨
    fun dd nn => ⟨?ldDdNn, runs_registerWrite (fun _ c => c.setRp dd nn) (fun _ => .setRp dd nn) fun _ => rfl⟩,
    fun nn => ⟨?ldIxNn, runs_registerWrite (fun _ c => c.setIdx .ix nn) (fun _ => .setIdx .ix nn) fun _ => rfl⟩,
    fun nn => ⟨?ldIyNn, runs_registerWrite (fun _ c => c.setIdx .iy nn) (fun _ => .setIdx .iy nn) fun _ => rfl⟩,
    fun nn => ⟨?ldHlMNn, ?runsLdHlMNn⟩,
    fun dd nn => ⟨?ldDdMNn, runs_loadWordFrom nn (fun v c => c.setRp dd v) (.setRp dd) fun _ => rfl⟩,
    fun nn => ⟨?ldIxMNn, runs_loadWordFrom nn (fun v c => c.setIdx .ix v) (.setIdx .ix) fun _ => rfl⟩,
    fun nn => ⟨?ldIyMNn, runs_loadWordFrom nn (fun v c => c.setIdx .iy v) (.setIdx .iy) fun _ => rfl⟩,
    ⟨?ldSpHl, runs_registerWrite (fun s c => { c with sp := s.core.hl }) (fun _ => .sp _) fun _ => rfl⟩,
    ⟨?ldSpIx, runs_registerWrite (fun s c => { c with sp := s.core.ix }) (fun _ => .sp _) fun _ => rfl⟩,
    ⟨?ldSpIy, runs_registerWrite (fun s c => { c with sp := s.core.iy }) (fun _ => .sp _) fun _ => rfl⟩⟩
  case runsLdHlMNn =>
    simpa only [Module.setRp, Module.setHl, wordAt, hiByte_pair, loByte_pair] using
      runs_loadWordFrom (i := .ldHlMNn nn) nn (fun v c => c.setRp .hl v) (.setRp .hl) fun _ => rfl
  case ldDdNn | ldDdMNn => rw [← wordBytes_eq_lowHigh]; cases dd <;> exact encoded_of_whole ⟨rfl, rfl, rfl⟩ rfl rfl
  case ldIxNn | ldIyNn | ldHlMNn | ldIxMNn | ldIyMNn =>
    rw [← wordBytes_eq_lowHigh]; exact encoded_of_whole ⟨rfl, rfl, rfl⟩ rfl rfl
  case ldSpHl | ldSpIx | ldSpIy => exact encoded_of_whole ⟨rfl, rfl, rfl⟩ rfl rfl

/-- Settles O39: each form stores the two bytes of a word, and MEMPTR or SP is the only register it writes. -/
theorem storePair : Obligations.StorePair := by
  refine ⟨
    fun nn => ⟨?ldMNnHl, ?runsLdMNnHl⟩,
    fun dd nn => ⟨?ldMNnDd, runs_storeWordTo nn (fun s => s.core.rp dd) fun _ => rfl⟩,
    fun nn => ⟨?ldMNnIx, runs_storeWordTo nn (fun s => s.core.ix) fun _ => rfl⟩,
    fun nn => ⟨?ldMNnIy, runs_storeWordTo nn (fun s => s.core.iy) fun _ => rfl⟩,
    fun qq => ⟨?pushQq, runs_push (fun s => s.core.rp2 qq) fun _ => rfl⟩,
    ⟨?pushIx, runs_push (fun s => s.core.ix) fun _ => rfl⟩,
    ⟨?pushIy, runs_push (fun s => s.core.iy) fun _ => rfl⟩⟩
  case runsLdMNnHl =>
    simpa only [Module.hl, loByte_pair, hiByte_pair] using
      runs_storeWordTo (i := .ldMNnHl nn) nn (fun s => s.core.hl) fun _ => rfl
  case ldMNnDd => rw [← wordBytes_eq_lowHigh]; cases dd <;> exact encoded_of_whole ⟨rfl, rfl, rfl⟩ rfl rfl
  case ldMNnHl | ldMNnIx | ldMNnIy => rw [← wordBytes_eq_lowHigh]; exact encoded_of_whole ⟨rfl, rfl, rfl⟩ rfl rfl
  case pushQq => cases qq <;> exact encoded_of_whole ⟨rfl, rfl, rfl⟩ rfl rfl
  case pushIx | pushIy => exact encoded_of_whole ⟨rfl, rfl, rfl⟩ rfl rfl

/-- Settles O40: each form writes a register and SP; F of POP AF is written as a half of AF, so the step ends with Q = 0. -/
theorem popPair : Obligations.PopPair := by
  refine ⟨
    fun qq => ⟨?popQq, runs_pop (fun v c => c.setRp2 qq v) (.setRp2 qq) (fun _ _ _ => by cases qq <;> rfl) fun _ => rfl⟩,
    ⟨?popIx, runs_pop (fun v c => c.setIdx .ix v) (.setIdx .ix) (fun _ _ _ => rfl) fun _ => rfl⟩,
    ⟨?popIy, runs_pop (fun v c => c.setIdx .iy v) (.setIdx .iy) (fun _ _ _ => rfl) fun _ => rfl⟩⟩
  case popQq => cases qq <;> exact encoded_of_whole ⟨rfl, rfl, rfl⟩ rfl rfl
  case popIx | popIy => exact encoded_of_whole ⟨rfl, rfl, rfl⟩ rfl rfl

end Sys2Proof.Machine
end

section
/-!
The exchange, block transfer and block search group, the statements of 42_exchange_block.md (O41 to O43).
-/

namespace Sys2Proof.Machine

/-! ### The exchanges -/

namespace RegisterWrite

/-- The exchange of DE with HL (R210). -/
theorem exDeHl : RegisterWrite fun c => { c with d := c.h, e := c.l, h := c.d, l := c.e } :=
  ⟨fun _ => rfl, fun _ => rfl, fun _ _ => rfl⟩

/-- The exchange of AF with AF' (R211). -/
theorem exAfAf : RegisterWrite fun c => { c with a := c.a', f := c.f', a' := c.a, f' := c.f } :=
  ⟨fun _ => rfl, fun _ => rfl, fun _ _ => rfl⟩

/-- The exchange of BC, DE and HL with their shadows (R212). -/
theorem exx : RegisterWrite fun c => { c with
    b := c.b', c := c.c', d := c.d', e := c.e', h := c.h', l := c.l'
    b' := c.b, c' := c.c, d' := c.d, e' := c.e, h' := c.h, l' := c.l } :=
  ⟨fun _ => rfl, fun _ => rfl, fun _ _ => rfl⟩

end RegisterWrite

/-- T-states spent before a step that ends with `done` are T-states of that step (R124(d)). -/
theorem done_mapCore_spend (s : State) (k n : Nat) (c : Module) :
    (s.mapCore (·.spend k)).done n (c.spend k) = s.done (k + n) c := by
  simp only [State.done, State.mapCore, State.setCore_setCore, Module.spend, Nat.add_assoc]

/-- EX DE,HL after DD or FD exchanges DE with HL, not with IX or IY (R210, R124(d)). -/
theorem exec_ddFd_exDeHl (x : IdxReg) (s : State) : exec (.ddFd x .exDeHl) s =
    s.done 8 { s.core with d := s.core.h, e := s.core.l, h := s.core.d, l := s.core.e } := by
  rw [← done_mapCore_spend s 4 4]
  change execExDeHl (s.mapCore (·.spend 4)) = _
  rw [execExDeHl, State.core_mapCore]
  rfl

/-- EX (SP),HL and EX (SP),xy: the word at the top of the stack goes to a register and to MEMPTR, the register's to the stack
(R213, R214). -/
theorem runs_exchangeStack {i : Instr} {n : Nat} (v : State → Word) (g : Word → Module → Module)
    (hg : ∀ w, RegisterWrite (g w))
    (he : ∀ s, exec i s = (s.writeWord s.core.sp (v s)).done n
      { g (s.readWord s.core.sp) (s.writeWord s.core.sp (v s)).core with memptr := s.readWord s.core.sp }) :
    Runs i n false fun s t => StoresTwo s t s.core.sp (loByte (v s)) (hiByte (v s)) ∧
      t.core = { g (wordAt s s.core.sp) (s.core.stepped t.core) with memptr := wordAt s s.core.sp } :=
  runs_storeTwo (fun s => s.writeWord s.core.sp (v s)) (fun s => s.core.sp) v
    (fun s c => { g (wordAt s s.core.sp) c with memptr := wordAt s s.core.sp })
    (fun _ => (RegisterWrite.memptr _).comp (hg _)) (fun s c => storesTwo_writeWord s s.core.sp (v s) c)
    fun s => by rw [he, State.core_writeWord]; rfl

/-- Settles O41: the exchanges between registers are register writes, those with the stack store a word too. -/
theorem exchanges : Obligations.Exchanges := by
  refine ⟨
    ⟨?exDeHl, runs_registerWrite _ (fun _ => .exDeHl) fun _ => rfl⟩,
    fun x => ⟨?ddFd, runs_registerWrite _ (fun _ => .exDeHl) fun s => exec_ddFd_exDeHl x s⟩,
    ⟨?exAfAf, runs_registerWrite _ (fun _ => .exAfAf) fun _ => rfl⟩,
    ⟨?exx, runs_registerWrite _ (fun _ => .exx) fun _ => rfl⟩,
    ⟨?exMSpHl, ?runsExMSpHl⟩,
    ⟨?exMSpIx, runs_exchangeStack (fun s => s.core.ix) (fun w c => c.setIdx .ix w) (.setIdx .ix) fun _ => rfl⟩,
    ⟨?exMSpIy, runs_exchangeStack (fun s => s.core.iy) (fun w c => c.setIdx .iy w) (.setIdx .iy) fun _ => rfl⟩⟩
  case runsExMSpHl =>
    simpa only [Module.setRp, Module.setHl, Module.hl, wordAt, hiByte_pair, loByte_pair] using
      runs_exchangeStack (i := .exMSpHl) (fun s => s.core.hl) (fun w c => c.setRp .hl w) (.setRp .hl) fun _ => rfl
  case ddFd => exact encoded_of_whole ⟨rfl, rfl, rfl⟩ rfl (by cases x <;> rfl)
  case exDeHl | exAfAf | exx | exMSpHl | exMSpIx | exMSpIy => exact encoded_of_whole ⟨rfl, rfl, rfl⟩ rfl rfl

/-! ### A block iteration -/

theorem sub_beq_zero {w : Nat} (a b : BitVec w) : (a - b == 0) = (a == b) := by
  rw [beq_bits, beq_bits, decide_eq_decide, BitVec.sub_eq_iff_eq_add, BitVec.ofNat_eq_ofNat,
    BitVec.zero_add]

/-- BC after the count is 0 where it was 1 (R215, R219). -/
theorem sub_one_bne_zero (w : Word) : (w - 1 != 0) = decide (w ≠ 1) := by
  rw [bne, sub_beq_zero, beq_bits, ← decide_not]

/-- A repeat moves PC back and MEMPTR with it; of F it may replace Y and X (R216, R220). -/
theorem repeatBlock_eq (k : BlockRepeatXy) (c : Module) :
    repeatBlock k c = { c with f := (repeatBlock k c).f, pc := c.pc - 2, memptr := c.pc - 2 + 1 } := by
  cases k <;> rfl

theorem pc_repeatBlock (k : BlockRepeatXy) (c : Module) : (repeatBlock k c).pc = c.pc - 2 := by rw [repeatBlock_eq]

theorem memptr_repeatBlock (k : BlockRepeatXy) (c : Module) : (repeatBlock k c).memptr = c.pc - 2 + 1 := by
  rw [repeatBlock_eq]

theorem f_repeatBlock_classic {k : BlockRepeatXy} (hk : k = .classic) (c : Module) : (repeatBlock k c).f = c.f := by
  rw [hk]; rfl

theorem f_repeatBlock_pcHigh {k : BlockRepeatXy} (hk : k = .pcHigh) (c : Module) :
    (repeatBlock k c).f = withPcXY c.f (c.pc - 2) := by
  rw [hk]; rfl

/-- Under `PC_HIGH` Y and X of a repeat are those of the PC it goes back to (R216, R220). -/
theorem flagYX_repeatBlock_pcHigh {k : BlockRepeatXy} (hk : k = .pcHigh) (c : Module) :
    flagY (repeatBlock k c).f = (c.pc - 2).getLsbD 13 ∧ flagX (repeatBlock k c).f = (c.pc - 2).getLsbD 11 := by
  rw [f_repeatBlock_pcHigh hk]
  exact ⟨flagY_packFlags .., flagX_packFlags ..⟩

/-- The two bytes differ in Y and X at most. -/
def SameButYX (f f' : Byte) : Prop :=
  flagS f' = flagS f ∧ flagZ f' = flagZ f ∧ flagH f' = flagH f ∧ flagP f' = flagP f ∧ flagN f' = flagN f ∧
    flagC f' = flagC f

theorem SameButYX.refl (f : Byte) : SameButYX f f := ⟨rfl, rfl, rfl, rfl, rfl, rfl⟩

theorem sameButYX_repeatBlock (k : BlockRepeatXy) (c : Module) : SameButYX c.f (repeatBlock k c).f := by
  cases k
  case classic => exact .refl _
  case pcHigh => simp [SameButYX, f_repeatBlock_pcHigh rfl, withPcXY]

/-- One iteration a step: where `more` says so it repeats, in 21 T-states, else it ends in 16 (R216, R220). -/
theorem runsFor_block {i : Instr} {n : State → Nat} {post : State → State → Prop} (s1 : State → State)
    (c : State → Module) (more : State → Bool)
    (he : ∀ s, exec i s = if more s then (s1 s).doneFlags (blockTime true) (repeatBlock s.cfg.blockRepeatXy (c s))
      else (s1 s).doneFlags (blockTime false) (c s))
    (hn : ∀ s, n s = blockTime (more s)) (ht : ∀ s, (c s).t = s.core.t)
    (hlast : ∀ s, more s = false → post s ((s1 s).setCore (((c s).spend 16).endStep (c s).f)))
    (hagain : ∀ s, more s = true → post s ((s1 s).setCore
      (((repeatBlock s.cfg.blockRepeatXy (c s)).spend 21).endStep (repeatBlock s.cfg.blockRepeatXy (c s)).f))) :
    RunsFor i n true post := by
  intro s
  rw [he, hn]
  cases hmore : more s
  case false => exact ⟨_, rfl, by rw [State.core_setCore]; exact endsStep_doneFlags (ht s) _, hlast s hmore⟩
  case true =>
    have ht' : (repeatBlock s.cfg.blockRepeatXy (c s)).t = s.core.t := by rw [repeatBlock_eq]; exact ht s
    exact ⟨_, rfl, by rw [State.core_setCore]; exact endsStep_doneFlags ht' _, hagain s hmore⟩

/-! ### The block transfers -/

/-- A module after one transfer of `v` (R215, R217). -/
def transferred (step : Word) (v : Byte) (c : Module) : Module :=
  { ((c.setHl (c.hl + step)).setDe (c.de + step)).setBc (c.bc - 1) with
    f := blockLdFlags v c.a c.f (c.bc - 1 != 0) }

theorem transferOnce_eq (step : Word) (s : State) : transferOnce step s =
    (s.writeByte s.core.de (s.readByte s.core.hl)).setCore (transferred step (s.readByte s.core.hl) s.core) := by
  rw [transferOnce, State.mapCore_eq, State.core_writeByte]; rfl

theorem core_transferOnce (step : Word) (s : State) :
    (transferOnce step s).core = transferred step (s.readByte s.core.hl) s.core := by
  rw [transferOnce_eq, State.core_setCore]

theorem setCore_transferOnce (step : Word) (s : State) (c : Module) :
    (transferOnce step s).setCore c = (s.writeByte s.core.de (s.readByte s.core.hl)).setCore c := by
  rw [transferOnce_eq, State.setCore_setCore]

theorem bc_transferred (step : Word) (v : Byte) (c : Module) : (transferred step v c).bc = c.bc - 1 :=
  pair_hiByte_loByte _

/-- The store and the pairs of a transfer, whatever becomes of F, PC and MEMPTR. -/
theorem transferFrame_transferred (step : Word) (s : State) (f q : Byte) (pc memptr : Word) (n : Nat) :
    TransferFrame step s ((transferOnce step s).setCore (({ transferred step (s.readByte s.core.hl) s.core with
      f := f, pc := pc, memptr := memptr }.spend n).endStep q)) := by
  rw [setCore_transferOnce]
  refine ⟨stores_writeByte s _ _ _ rfl rfl, ?hl, ?de, ?bc, ?rest⟩ <;> rw [State.core_setCore]
  case hl | de | bc => exact pair_hiByte_loByte _
  case rest => rfl

/-- The flags of a transfer, in F or in any byte that differs in Y and X at most. -/
theorem transferFlags_of_sameButYX {step : Word} {s t : State}
    (h : SameButYX (transferred step (s.readByte s.core.hl) s.core).f t.core.f) : TransferFlags s t := by
  obtain ⟨hS, hZ, hH, hP, hN, hC⟩ := h
  exact ⟨hS.trans (flagS_packFlags ..), hZ.trans (flagZ_packFlags ..), hC.trans (flagC_packFlags ..),
    hH.trans (flagH_packFlags ..), hN.trans (flagN_packFlags ..),
    hP.trans ((flagP_packFlags ..).trans (sub_one_bne_zero s.core.bc))⟩

/-- Y and X of a transfer are bits 1 and 3 of v + A (R215). -/
theorem flagYX_transferred (step : Word) (v : Byte) (c : Module) :
    flagY (transferred step v c).f = (v + c.a).getLsbD 1 ∧ flagX (transferred step v c).f = (v + c.a).getLsbD 3 := by
  simp [transferred, blockLdFlags]

theorem transferOnce_transferred (step : Word) (s : State) (n : Nat) (q : Byte) : TransferOnce step s
    ((transferOnce step s).setCore (((transferred step (s.readByte s.core.hl) s.core).spend n).endStep q)) := by
  refine ⟨transferFrame_transferred step s _ q _ _ n, transferFlags_of_sameButYX (step := step) ?_, ?_⟩ <;>
    rw [State.core_setCore]
  · exact .refl _
  · exact ⟨rfl, rfl, flagYX_transferred step _ _⟩

/-- LDI and LDD (R215, R217). -/
theorem runs_transferStep {i : Instr} (step : Word) (he : ∀ s, exec i s = transferStep step s) :
    Runs i 16 true (TransferOnce step) :=
  runs_doneFlags (transferOnce step) (fun s => transferred step (s.readByte s.core.hl) s.core)
    (fun s => by rw [he, transferStep, core_transferOnce]) (fun _ => rfl)
    fun s => transferOnce_transferred step s 16 _

/-- LDIR and LDDR (R216, R218). -/
theorem runsFor_transferRepeat {i : Instr} (step : Word) (he : ∀ s, exec i s = transferRepeat step s) :
    RunsFor i (fun s => if s.core.bc = 1 then 16 else 21) true (TransferRepeats step) := by
  refine runsFor_block (transferOnce step) (fun s => transferred step (s.readByte s.core.hl) s.core)
    (fun s => decide (s.core.bc ≠ 1)) (fun s => ?exec) (fun s => ?time) (fun _ => rfl) (fun s hmore => ?last)
    fun s hmore => ?again
  case exec => rw [he, transferRepeat, core_transferOnce, bc_transferred, sub_one_bne_zero]
  case time => simp only [blockTime, decide_eq_true_eq, ite_not]
  case last =>
    have hbc : s.core.bc = 1 := Decidable.of_not_not (of_decide_eq_false hmore)
    exact ⟨fun _ => transferOnce_transferred step s 16 _, fun hne => absurd hbc hne⟩
  case again =>
    refine ⟨fun hbc => absurd hbc (of_decide_eq_true hmore), fun _ =>
      ⟨?frame, transferFlags_of_sameButYX (step := step) ?flags, ?pc, ?memptr, fun hk => ?classic, fun hk => ?pcHigh⟩⟩
    case frame => rw [repeatBlock_eq]; exact transferFrame_transferred step s _ _ _ _ 21
    all_goals rw [State.core_setCore]
    case flags => exact sameButYX_repeatBlock _ _
    case pc => exact pc_repeatBlock _ _
    case memptr => exact memptr_repeatBlock _ _
    case classic => rw [Module.endStep_f, Module.spend_f, f_repeatBlock_classic hk]; exact flagYX_transferred step _ _
    case pcHigh => exact flagYX_repeatBlock_pcHigh hk _

/-- Settles O42: the four transfers are one transfer each, whose repeat changes PC, MEMPTR, Y and X only. -/
theorem blockTransfers : Obligations.BlockTransfers := by
  refine ⟨
    ⟨?ldi, runs_transferStep 1 fun _ => rfl⟩,
    ⟨?ldd, runs_transferStep 0xFFFF fun _ => rfl⟩,
    ⟨?ldir, runsFor_transferRepeat 1 fun _ => rfl⟩,
    ⟨?lddr, runsFor_transferRepeat 0xFFFF fun _ => rfl⟩⟩
  all_goals exact encoded_of_whole ⟨rfl, rfl, rfl⟩ rfl rfl

/-! ### The block searches -/

/-- The low nibble of a byte. -/
theorem lowNibble_lt (a v : Byte) : (a &&& 0x0F < v &&& 0x0F) ↔ a.toNat % 16 < v.toNat % 16 := by
  have h (b : Byte) : (b &&& 0x0F).toNat = b.toNat % 16 := Nat.and_two_pow_sub_one_eq_mod b.toNat 4
  rw [BitVec.lt_def, h, h]

theorem bc_searchOnce (step : Word) (v : Byte) (c : Module) : (searchOnce step v c).bc = c.bc - 1 :=
  pair_hiByte_loByte _

/-- The pairs of a comparison, whatever becomes of F, PC and MEMPTR. -/
theorem searchFrame_searchOnce (step : Word) (s : State) (f q : Byte) (pc memptr : Word) (n : Nat) :
    SearchFrame step s (s.setCore (({ searchOnce step (s.readByte s.core.hl) s.core with
      f := f, pc := pc, memptr := memptr }.spend n).endStep q)) := by
  refine ⟨quiet_setCore s _ rfl rfl, ?hl, ?bc, ?rest⟩ <;> rw [State.core_setCore]
  case hl | bc => exact pair_hiByte_loByte _
  case rest => rfl

/-- The flags of a comparison, in F or in any byte that differs in Y and X at most. -/
theorem searchFlags_of_sameButYX {step : Word} {s t : State}
    (h : SameButYX (searchOnce step (s.readByte s.core.hl) s.core).f t.core.f) : SearchFlags s t := by
  obtain ⟨hS, hZ, hH, hP, hN, hC⟩ := h
  exact ⟨hS.trans (flagS_packFlags ..), hZ.trans ((flagZ_packFlags ..).trans ((sub_beq_zero ..).trans (beq_bits ..))),
    hH.trans ((flagH_packFlags ..).trans (decide_eq_decide.mpr (lowNibble_lt _ _))),
    hP.trans ((flagP_packFlags ..).trans (sub_one_bne_zero s.core.bc)), hN.trans (flagN_packFlags ..),
    hC.trans (flagC_packFlags ..)⟩

/-- Y and X of a comparison are bits 1 and 3 of A - v - H (R219). -/
theorem searchYX_of_eq {step : Word} {s t : State} (h : t.core.f = (searchOnce step (s.readByte s.core.hl) s.core).f) :
    SearchYX s t := by
  simp only [SearchYX, h, searchOnce, blockCpFlags, flagY_packFlags, flagX_packFlags, lowNibble_lt, decide_eq_true_eq,
    and_self]

theorem searchOnce_ended (step : Word) (s : State) (n : Nat) (q : Byte) : SearchOnce step s
    (s.setCore (((searchOnce step (s.readByte s.core.hl) s.core).spend n).endStep q)) := by
  refine ⟨searchFrame_searchOnce step s _ q _ _ n, searchFlags_of_sameButYX (step := step) ?_,
    searchYX_of_eq (step := step) ?_, ?_⟩ <;> rw [State.core_setCore]
  · exact .refl _
  · rfl
  · exact ⟨rfl, rfl⟩

/-- CPI and CPD (R219, R221). -/
theorem runs_searchStep {i : Instr} (step : Word) (he : ∀ s, exec i s = searchStep step s) :
    Runs i 16 true (SearchOnce step) :=
  runs_doneFlags (fun s => s) (fun s => searchOnce step (s.readByte s.core.hl) s.core) he (fun _ => rfl)
    fun s => searchOnce_ended step s 16 _

/-- The repeat's condition is that of the statements (R220). -/
theorem searchGoesOn_eq (s : State) :
    searchGoesOn s = (s.core.bc - 1 != 0 && s.core.a - s.readByte s.core.hl != 0) := by
  simp only [searchGoesOn, bne, sub_beq_zero]

/-- CPIR and CPDR (R220, R222). -/
theorem runsFor_searchRepeat {i : Instr} (step : Word) (he : ∀ s, exec i s = searchRepeat step s) :
    RunsFor i (fun s => if searchGoesOn s then 21 else 16) true (SearchRepeats step) := by
  refine runsFor_block (fun s => s) (fun s => searchOnce step (s.readByte s.core.hl) s.core) searchGoesOn
    (fun s => ?exec) (fun _ => rfl) (fun _ => rfl) (fun s hmore => ?last) fun s hmore => ?again
  case exec => rw [he, searchRepeat, bc_searchOnce, searchGoesOn_eq]
  case last => exact ⟨fun _ => searchOnce_ended step s 16 _, fun h => absurd (hmore.symm.trans h) Bool.false_ne_true⟩
  case again =>
    refine ⟨fun h => absurd (h.symm.trans hmore) Bool.false_ne_true, fun _ =>
      ⟨?frame, searchFlags_of_sameButYX (step := step) ?flags, ?pc, ?memptr,
        fun hk => searchYX_of_eq (step := step) ?classic, fun hk => ?pcHigh⟩⟩
    case frame => rw [repeatBlock_eq]; exact searchFrame_searchOnce step s _ _ _ _ 21
    all_goals rw [State.core_setCore]
    case flags => exact sameButYX_repeatBlock _ _
    case pc => exact pc_repeatBlock _ _
    case memptr => exact memptr_repeatBlock _ _
    case classic => exact f_repeatBlock_classic hk _
    case pcHigh => exact flagYX_repeatBlock_pcHigh hk _

/-- Settles O43: the four searches are one comparison each, whose repeat changes PC, MEMPTR, Y and X only. -/
theorem blockSearches : Obligations.BlockSearches := by
  refine ⟨
    ⟨?cpi, runs_searchStep 1 fun _ => rfl⟩,
    ⟨?cpd, runs_searchStep 0xFFFF fun _ => rfl⟩,
    ⟨?cpir, runsFor_searchRepeat 1 fun _ => rfl⟩,
    ⟨?cpdr, runsFor_searchRepeat 0xFFFF fun _ => rfl⟩⟩
  all_goals exact encoded_of_whole ⟨rfl, rfl, rfl⟩ rfl rfl

end Sys2Proof.Machine
end

section
/-!
The 8-bit arithmetic and logic group, the statements of 43_alu8.md (O44 to O47).
-/

namespace Sys2Proof

/-! ### The accumulator operations by their field value -/

/-- The field value y of an accumulator operation (R126, R240). -/
def AluOp.code : AluOp → BitVec 3
  | .add => 0
  | .adc => 1
  | .sub => 2
  | .sbc => 3
  | .and => 4
  | .xor => 5
  | .or => 6
  | .cp => 7

namespace Machine

theorem exec_aluReg (op : AluOp) (r : Reg8) (s : State) : exec (aluReg op.code r) s = aluRegStep op r s := by
  cases op <;> rfl

theorem exec_aluImm (op : AluOp) (n : Byte) (s : State) : exec (aluImm op.code n) s = aluImmStep op n s := by
  cases op <;> rfl

theorem exec_aluMHl (op : AluOp) (s : State) : exec (aluMHl op.code) s = aluMHlStep op s := by
  cases op <;> rfl

theorem exec_aluIdx (op : AluOp) (x : IdxReg) (d : Byte) (s : State) :
    exec (aluIdx op.code x d) s = aluIdxStep op x d s := by
  cases op <;> cases x <;> rfl

theorem exec_aluHalf (op : AluOp) (x : IdxReg) (h : Half) (s : State) :
    exec (aluHalf op.code x h) s = aluHalfStep op x h s := by
  cases op <;> rfl

/-- The (xy+d) form reads its operand and writes MEMPTR, A and F of the module (R240). -/
theorem aluIdxStep_eq (op : AluOp) (x : IdxReg) (d : Byte) (s : State) : aluIdxStep op x d s =
    s.doneFlags 19 { s.core with
      a := aluResult op s.core.a (s.readByte (s.core.ea x d)) s.core.f
      f := aluFlags op s.core.a (s.readByte (s.core.ea x d)) s.core.f
      memptr := s.core.ea x d } := by
  simp only [aluIdxStep, aluStep, State.doneFlags, State.mapCore, State.core_setCore, State.setCore_setCore]

/-! ### Steps that write flags (R430) -/

namespace RegisterWrite

theorem f (v : Byte) : RegisterWrite fun c => { c with f := v } := ⟨fun _ => rfl, fun _ => rfl, fun _ _ => rfl⟩

end RegisterWrite

/-- A step that writes registers, F among them, and nothing else. -/
theorem runs_flagWrite {i : Instr} {n : Nat} {post : State → State → Prop} (g : State → Module → Module)
    (hg : ∀ s, RegisterWrite (g s)) (he : ∀ s, exec i s = s.doneFlags n (g s s.core))
    (hpost : ∀ s t, Quiet s t → t.core = g s (s.core.stepped t.core) → post s t) : Runs i n true post := by
  refine runs_doneFlags (fun s => s) (fun s => g s s.core) he (fun s => (hg s).t _) fun s =>
    hpost s _ (quiet_setCore s _ ((hg s).port7FFD _) ((hg s).trdos _)) ?_
  rw [State.core_setCore]
  exact (hg s).ended s.core n _

/-- A step that stores a byte and writes registers, F among them. -/
theorem runs_storeFlagWrite {i : Instr} {n : Nat} {post : State → State → Prop} (a : State → Word) (v : State → Byte)
    (g : State → Module → Module) (hg : ∀ s, RegisterWrite (g s))
    (he : ∀ s, exec i s = (s.writeByte (a s) (v s)).doneFlags n (g s s.core))
    (hpost : ∀ s t, Stores s t (a s) (v s) → t.core = g s (s.core.stepped t.core) → post s t) : Runs i n true post := by
  refine runs_doneFlags (fun s => s.writeByte (a s) (v s)) (fun s => g s s.core) he (fun s => (hg s).t _) fun s =>
    hpost s _ (stores_writeByte s _ _ _ ((hg s).port7FFD _) ((hg s).trdos _)) ?_
  rw [State.core_setCore]
  exact (hg s).ended s.core n _

/-! ### The six operand forms (R240) -/

/-- One form, from the module its step ends with. -/
theorem aluForm_of_exec {i : Instr} {bytes : List Byte} {m1 n : Nat} {v : State → Byte} {mp : State → Word} (op : AluOp)
    {rule : Byte → Byte → Byte → Byte → Byte → Prop} (hrule : ∀ a v f, rule a v f (aluResult op a v f) (aluFlags op a v f))
    (henc : Encoded i bytes m1)
    (he : ∀ s, exec i s = s.doneFlags n { s.core with
      a := aluResult op s.core.a (v s) s.core.f, f := aluFlags op s.core.a (v s) s.core.f, memptr := mp s }) :
    AluForm i bytes m1 n v mp rule := by
  refine ⟨henc, runs_flagWrite (fun s c => { c with
    a := aluResult op s.core.a (v s) s.core.f, f := aluFlags op s.core.a (v s) s.core.f, memptr := mp s })
    (fun _ => ⟨fun _ => rfl, fun _ => rfl, fun _ _ => rfl⟩) he fun s t hquiet hcore => ?_⟩
  have ha : t.core.a = aluResult op s.core.a (v s) s.core.f := congrArg Module.a hcore
  have hf : t.core.f = aluFlags op s.core.a (v s) s.core.f := congrArg Module.f hcore
  rw [ha, hf]
  exact ⟨hquiet, hcore, hrule _ _ _⟩

/-- An accumulator operation does in every operand form what its rule says of its result and flags. -/
theorem aluForms_of_rule (op : AluOp) {rule : Byte → Byte → Byte → Byte → Byte → Prop}
    (hrule : ∀ a v f, rule a v f (aluResult op a v f) (aluFlags op a v f)) :
    AluForms op.code.toNat (aluReg op.code) (aluImm op.code) (aluMHl op.code) (aluIdx op.code .ix) (aluIdx op.code .iy)
      (aluHalf op.code) rule := by
  refine ⟨
    fun r => aluForm_of_exec op hrule ?reg (exec_aluReg op r),
    fun n => aluForm_of_exec op hrule ?imm (exec_aluImm op n),
    aluForm_of_exec op hrule ?mHl (exec_aluMHl op),
    fun d => aluForm_of_exec op hrule ?mIx fun s => (exec_aluIdx op .ix d s).trans (aluIdxStep_eq op .ix d s),
    fun d => aluForm_of_exec op hrule ?mIy fun s => (exec_aluIdx op .iy d s).trans (aluIdxStep_eq op .iy d s),
    fun x h => aluForm_of_exec op hrule ?half (exec_aluHalf op x h)⟩
  case reg => cases op <;> cases r <;> exact encoded_of_whole ⟨rfl, rfl, rfl⟩ rfl rfl
  case half => cases op <;> cases x <;> cases h <;> exact encoded_of_whole ⟨rfl, rfl, rfl⟩ rfl rfl
  case imm | mHl | mIx | mIy => cases op <;> exact encoded_of_whole ⟨rfl, rfl, rfl⟩ rfl rfl

/-- A subtraction without carry in (R245, R250). -/
theorem subResult_false (a v : Byte) : subResult a v false = a - v := by
  simp [subResult]

/-- CP's flags are those of A - v (R250). -/
theorem subtractorRule_cp (a v : Byte) : SubtractorRule a v false (a - v) (subFlagsXY a v false v) := by
  rw [← subResult_false]
  exact subtractorRule_sub a v false v

/-- Settles O44: ADD is the adder without, ADC with the old carry. -/
theorem addAndAdc : Obligations.AddAndAdc :=
  ⟨aluForms_of_rule .add fun a v _ => adderRule_add a v false,
    aluForms_of_rule .adc fun a v f => adderRule_add a v (flagC f)⟩

/-- Settles O45: SUB is the subtractor without, SBC with the old carry, and CP the flags of SUB but for Y and X. -/
theorem subSbcAndCp : Obligations.SubSbcAndCp :=
  ⟨aluForms_of_rule .sub fun a v _ => ⟨subtractorRule_sub a v false _, flagsYX_sub a v false _⟩,
    aluForms_of_rule .sbc fun a v f => ⟨subtractorRule_sub a v (flagC f) _, flagsYX_sub a v (flagC f) _⟩,
    aluForms_of_rule .cp fun a v _ => ⟨subtractorRule_cp a v, flagsYX_sub a v false v, rfl⟩⟩

/-- Settles O46: each operation works bit by bit, and its flags are the logic flags of the result. -/
theorem logicOperations : Obligations.LogicOperations :=
  ⟨aluForms_of_rule .and fun _ _ _ => ⟨fun _ => BitVec.getLsbD_and, logicRule_logicFlags _ true⟩,
    aluForms_of_rule .xor fun _ _ _ => ⟨fun _ => BitVec.getLsbD_xor, logicRule_logicFlags _ false⟩,
    aluForms_of_rule .or fun _ _ _ => ⟨fun _ => BitVec.getLsbD_or, logicRule_logicFlags _ false⟩⟩

/-! ### INC and DEC (R251 to R256) -/

/-- A byte is written alike whatever else of the module is replaced. -/
theorem State.writeByte_setCore (s : State) (c : Module) (hl : c.port7FFD = s.core.port7FFD)
    (ho : c.trdos = s.core.trdos) (a : Word) (v : Byte) :
    (s.setCore c).writeByte a v = (s.writeByte a v).setCore c := by
  have hb : (s.setCore c).backing a = s.backing a := by
    simp [State.backing, Machine.backing, romImage128, romImage48, hl, ho]
  unfold State.writeByte
  rw [hb]
  split <;> rfl

theorem modifyByte_eq (a : Word) (g : Byte → Byte) (fl : Byte → Byte → Byte) (n : Nat) (s : State) :
    modifyByte a g fl n s = (s.writeByte a (g (s.readByte a))).doneFlags n
      { s.core with f := fl (s.readByte a) s.core.f } := by
  rw [modifyByte, State.core_writeByte]

theorem modifyIndexed_eq (x : IdxReg) (d : Byte) (g : Byte → Byte) (fl : Byte → Byte → Byte) (n : Nat) (s : State) :
    modifyIndexed x d g fl n s = (s.writeByte (s.core.ea x d) (g (s.readByte (s.core.ea x d)))).doneFlags n
      { s.core with f := fl (s.readByte (s.core.ea x d)) s.core.f, memptr := s.core.ea x d } := by
  have hread := State.readByte_setCore s { s.core with memptr := s.core.ea x d } rfl rfl
  have hwrite := State.writeByte_setCore s { s.core with memptr := s.core.ea x d } rfl rfl
  simp only [modifyIndexed, modifyByte_eq, State.mapCore_eq, hread, hwrite, State.doneFlags, State.core_setCore,
    State.setCore_setCore]

section
variable {i : Instr} {n : Nat} {g : Byte → Byte} {fl : Byte → Byte → Byte} {rule : Byte → Byte → Byte → Byte → Prop}

/-- INC and DEC of a register or an index half (R251, R254). -/
theorem runs_modifyRegister (read : Module → Byte) (write : Byte → Module → Module) (hw : ∀ v, RegisterWrite (write v))
    (hrule : ∀ v f, rule v (g v) f (fl v f))
    (he : ∀ s, exec i s = s.doneFlags n { write (g (read s.core)) s.core with f := fl (read s.core) s.core.f }) :
    Runs i n true fun s t => Quiet s t ∧
      ∃ v, t.core = { write v (s.core.stepped t.core) with f := t.core.f } ∧ rule (read s.core) v s.core.f t.core.f := by
  refine runs_flagWrite (fun s c => { write (g (read s.core)) c with f := fl (read s.core) s.core.f })
    (fun _ => (RegisterWrite.f _).comp (hw _)) he fun s t hquiet hcore => ⟨hquiet, g (read s.core), ?_⟩
  have hf : t.core.f = fl (read s.core) s.core.f := congrArg Module.f hcore
  rw [hf]
  exact ⟨hcore, hrule _ _⟩

/-- INC and DEC of a byte in memory, MEMPTR as `mp` says. -/
theorem runs_modifyMemory (a mp : State → Word) (hrule : ∀ v f, rule v (g v) f (fl v f))
    (he : ∀ s, exec i s = (s.writeByte (a s) (g (s.readByte (a s)))).doneFlags n
      { s.core with f := fl (s.readByte (a s)) s.core.f, memptr := mp s }) :
    Runs i n true fun s t => t.core = { s.core.stepped t.core with f := t.core.f, memptr := mp s } ∧
      ∃ v, Stores s t (a s) v ∧ rule (s.readByte (a s)) v s.core.f t.core.f := by
  refine runs_storeFlagWrite a (fun s => g (s.readByte (a s)))
    (fun s c => { c with f := fl (s.readByte (a s)) s.core.f, memptr := mp s })
    (fun _ => (RegisterWrite.memptr _).comp (.f _)) he fun s t hstores hcore => ?_
  have hf : t.core.f = fl (s.readByte (a s)) s.core.f := congrArg Module.f hcore
  rw [hf]
  exact ⟨hcore, _, hstores, hrule _ _⟩

/-- INC (HL) and DEC (HL) (R252, R255). -/
theorem runs_modifyMHl (hrule : ∀ v f, rule v (g v) f (fl v f))
    (he : ∀ s, exec i s = modifyByte s.core.hl g fl n s) :
    Runs i n true fun s t => t.core = { s.core.stepped t.core with f := t.core.f } ∧
      ∃ v, Stores s t s.core.hl v ∧ rule (s.readByte s.core.hl) v s.core.f t.core.f :=
  runs_modifyMemory (fun s => s.core.hl) (fun s => s.core.memptr) hrule fun s => (he s).trans (modifyByte_eq ..)

/-- INC (xy+d) and DEC (xy+d), with MEMPTR <- the address (R253, R256). -/
theorem runs_modifyIndexed (x : IdxReg) (d : Byte) (hrule : ∀ v f, rule v (g v) f (fl v f))
    (he : ∀ s, exec i s = modifyIndexed x d g fl n s) :
    Runs i n true fun s t => t.core = { s.core.stepped t.core with f := t.core.f, memptr := s.core.ea x d } ∧
      ∃ v, Stores s t (s.core.ea x d) v ∧ rule (s.readByte (s.core.ea x d)) v s.core.f t.core.f :=
  runs_modifyMemory (fun s => s.core.ea x d) (fun s => s.core.ea x d) hrule fun s => (he s).trans (modifyIndexed_eq ..)

end

/-- The increment's result and flags (R251). -/
theorem incRule_inc (v f : Byte) : IncRule v (v + 1) f (incFlags v f) := by
  have hnibble : (v &&& 0x0F == 0x0F) = decide (v.toNat % 16 = 15) := by decide +revert
  have hgreatest : (v == 0x7F) = decide (v.toNat = 127) := by decide +revert
  exact ⟨BitVec.toNat_add v 1, by simp [FlagsSZXY, incFlags, beq_bits], (flagH_packFlags ..).trans hnibble,
    (flagP_packFlags ..).trans hgreatest, flagN_packFlags .., flagC_packFlags ..⟩

/-- The decrement's result and flags (R254). -/
theorem decRule_dec (v f : Byte) : DecRule v (v - 1) f (decFlags v f) := by
  have hresult : (v - 1).toNat = (v.toNat + 255) % 256 := by rw [BitVec.toNat_sub, Nat.add_comm]; rfl
  have hnibble : (v &&& 0x0F == 0) = decide (v.toNat % 16 = 0) := by decide +revert
  have hleast : (v == 0x80) = decide (v.toNat = 128) := by decide +revert
  exact ⟨hresult, by simp [FlagsSZXY, decFlags, beq_bits], (flagH_packFlags ..).trans hnibble,
    (flagP_packFlags ..).trans hleast, flagN_packFlags .., flagC_packFlags ..⟩

/-- Settles O47: each form modifies one register, index half or byte of memory. -/
theorem incAndDec : Obligations.IncAndDec := by
  refine ⟨⟨
    fun r => ⟨?incR, runs_modifyRegister (·.reg8 r) (fun v c => c.setReg8 r v) (.setReg8 r) incRule_inc fun _ => rfl⟩,
    fun x h => ⟨?incHalf,
      runs_modifyRegister (·.half x h) (fun v c => c.setHalf x h v) (.setHalf x h) incRule_inc fun _ => rfl⟩,
    ⟨?incMHl, runs_modifyMHl incRule_inc fun _ => rfl⟩,
    fun d => ⟨?incMIx, runs_modifyIndexed .ix d incRule_inc fun _ => rfl⟩,
    fun d => ⟨?incMIy, runs_modifyIndexed .iy d incRule_inc fun _ => rfl⟩⟩,
    fun r => ⟨?decR, runs_modifyRegister (·.reg8 r) (fun v c => c.setReg8 r v) (.setReg8 r) decRule_dec fun _ => rfl⟩,
    fun x h => ⟨?decHalf,
      runs_modifyRegister (·.half x h) (fun v c => c.setHalf x h v) (.setHalf x h) decRule_dec fun _ => rfl⟩,
    ⟨?decMHl, runs_modifyMHl decRule_dec fun _ => rfl⟩,
    fun d => ⟨?decMIx, runs_modifyIndexed .ix d decRule_dec fun _ => rfl⟩,
    fun d => ⟨?decMIy, runs_modifyIndexed .iy d decRule_dec fun _ => rfl⟩⟩
  case incR | decR => cases r <;> exact encoded_of_whole ⟨rfl, rfl, rfl⟩ rfl rfl
  case incHalf | decHalf => cases x <;> cases h <;> exact encoded_of_whole ⟨rfl, rfl, rfl⟩ rfl rfl
  case incMHl | incMIx | incMIy | decMHl | decMIx | decMIy => exact encoded_of_whole ⟨rfl, rfl, rfl⟩ rfl rfl

end Machine

end Sys2Proof
end

section
/-!
How much of a byte list the decoder leaves, for the opcodes that follow CB, DD, ED or FD (O51).
-/

namespace Sys2Proof

/-- An answer leaves no more bytes than `rest`, those after the opcode. -/
def Shrinks (rest : List Byte) (d : Decoded) : Prop := ∀ p ∈ d, p.2.length ≤ rest.length

variable {rest : List Byte}

@[simp] theorem shrinks_noOperand (i : Instr) : Shrinks rest (noOperand i rest) := by
  rintro p ⟨⟩
  exact Nat.le_refl _

@[simp] theorem shrinks_oneByte (k : Byte → Instr) : Shrinks rest (oneByte k rest) := by
  match rest with
  | [] => exact nofun
  | _ :: _ => rintro p ⟨⟩; exact Nat.le_succ _

@[simp] theorem shrinks_oneWord (k : Word → Instr) : Shrinks rest (oneWord k rest) := by
  match rest with
  | [] | [_] => exact nofun
  | _ :: _ :: _ => rintro p ⟨⟩; exact Nat.le_add_right _ 2

@[simp] theorem shrinks_twoBytes (k : Byte → Byte → Instr) : Shrinks rest (twoBytes k rest) := by
  match rest with
  | [] | [_] => exact nofun
  | _ :: _ :: _ => rintro p ⟨⟩; exact Nat.le_add_right _ 2

@[simp] theorem shrinks_none : Shrinks rest none := nofun

theorem shrinks_decodeAffected (x : IdxReg) (b : Byte) : Shrinks rest (decodeAffected x b rest) := by
  unfold decodeAffected
  split
  · unfold decodeIdxX0; split <;> split <;> simp
  · unfold decodeIdxX1
    split
    · exact shrinks_oneByte _
    · exact shrinks_oneByte _
    · split
      · exact shrinks_noOperand _
      · exact shrinks_none
  · unfold decodeIdxX2; split <;> simp
  · unfold decodeIdxX3; split <;> simp

theorem shrinks_decodeEd (b : Byte) : Shrinks rest (decodeEd b rest) := by
  unfold decodeEd
  split
  · unfold decodeEdX1; split <;> simp
  · exact shrinks_noOperand _
  · exact shrinks_noOperand _

/-- An unprefixed instruction has at least its opcode. -/
theorem shrinks_decodeUnprefixed {b : Byte} (h : isPrefix b = false) : Shrinks rest (decodeUnprefixed b rest) := by
  rintro ⟨i, rest'⟩ hd
  have hreads := decodeUnprefixed_reads (rest := rest) h
  rw [hd] at hreads
  obtain ⟨-, -, henc⟩ := hreads
  have hlen := congrArg List.length henc
  have hpos := List.length_pos_iff.mpr (encode_ne_nil i)
  simp only [List.length_append, List.length_singleton] at hlen
  dsimp only
  omega

theorem Shrinks.map {d : Decoded} (h : Shrinks rest d) (f : Instr → Instr) :
    Shrinks rest (d.map fun p => (f p.1, p.2)) := by
  cases d with
  | none => exact nofun
  | some p => rintro _ ⟨⟩; exact h p rfl

theorem shrinks_decodeIdx (x : IdxReg) {b : Byte} (h : cancelsPrefix b = false) : Shrinks rest (decodeIdx x (b :: rest)) := by
  by_cases hcb : b = 0xCB
  · subst hcb
    match rest with
    | [] | [_] => rintro p ⟨⟩ <;> exact Nat.le_refl _
    | _ :: _ :: _ => rintro p ⟨⟩; exact Nat.le_add_right _ 2
  · have hb := (isPrefix_eq_false_iff b).mpr ⟨hcb, h⟩
    rw [decodeIdx_opcode x hb]
    split
    · exact shrinks_decodeAffected x b
    · exact (shrinks_decodeUnprefixed hb).map (.ddFd x)

end Sys2Proof
end

section
/-!
Every instruction completes, in 4 T-states or more (O51).
-/

namespace Sys2Proof.Machine

/-! ### The ends of a step -/

/-- The answer is a next state, with at least the 4 T-states of an opcode fetch spent since `s` (R463). -/
def Completes (s : State) (r : Result) : Prop := ∃ t, r = .next t ∧ s.core.t + 4 ≤ t.core.t

theorem completes_setCore {s s1 : State} {c : Module} (h : s.core.t + 4 ≤ c.t) : Completes s (.next (s1.setCore c)) :=
  ⟨_, rfl, by rwa [State.core_setCore]⟩

/-- Whether a step ends with `done` or with `doneFlags`, it has spent its T-states. -/
theorem completes_ended {s s1 : State} {c : Module} {n : Nat} {q : Byte} (ht : c.t = s.core.t) (hn : 4 ≤ n) :
    Completes s (.next (s1.setCore ((c.spend n).endStep q))) :=
  completes_setCore (by rw [Module.endStep_t, Module.spend_t, ht]; omega)

theorem completes_ite {s : State} {p : Prop} [Decidable p] {r r' : Result} (h : Completes s r) (h' : Completes s r') :
    Completes s (if p then r else r') := by
  split <;> assumption

theorem blockTime_ge (repeats : Bool) : 4 ≤ blockTime repeats := by cases repeats <;> decide

@[simp] theorem t_copyTo (r : Option Reg8) (v : Byte) (c : Module) : (copyTo r v c).t = c.t := by
  cases r with
  | none => rfl
  | some r => exact Module.setReg8_t c r v

@[simp] theorem t_repeatBlock (k : BlockRepeatXy) (c : Module) : (repeatBlock k c).t = c.t := by rw [repeatBlock_eq]

@[simp] theorem t_portWrite (s : State) (port : Word) (v : Byte) (tw : Nat) : (s.portWrite port v tw).core.t = s.core.t := by
  rw [core_portWrite_latch]

theorem completes_blockIoEnd {s s1 : State} (ht : s1.core.t = s.core.t) (repeats : Bool) (fl : Byte) :
    Completes s (blockIoEnd repeats fl s1) := by
  unfold blockIoEnd
  refine completes_ite ?_ (completes_ended ht (blockTime_ge _))
  split <;> exact completes_ended ht (blockTime_ge _)

theorem completes_inBlock (s : State) (step : Word) (cStep : Byte) (rep : Bool) :
    Completes s (inBlock step cStep rep s) :=
  completes_blockIoEnd (by simp [State.portReadDone]) _ _

theorem completes_outBlock (s : State) (step : Word) (rep : Bool) : Completes s (outBlock step rep s) :=
  completes_blockIoEnd (by simp) _ _

theorem completes_transferRepeat (s : State) (step : Word) : Completes s (transferRepeat step s) :=
  completes_ite (completes_ended (by rw [t_repeatBlock, core_transferOnce]; rfl) (blockTime_ge _))
    (completes_ended (by rw [core_transferOnce]; rfl) (blockTime_ge _))

theorem completes_searchRepeat (s : State) (step : Word) : Completes s (searchRepeat step s) :=
  completes_ite (completes_ended (by rw [t_repeatBlock]; rfl) (blockTime_ge _))
    (completes_ended rfl (blockTime_ge _))

/-! ### What runs after DD or FD, and what goes on fetching -/

theorem runPlain_of_unaffected {op : Instr} (h : op.unaffected = true) (s : State) : runPlain op s = exec op s := by
  cases op with
  | ddFd | prefixCb | prefixDd | prefixEd | prefixFd | prefixDdCb | prefixFdCb => cases h
  | _ => rfl

theorem runFetched_eq_exec {i : Instr} (h : i.isLonePrefix = false) (s : State) : runFetched i s = exec i s := by
  cases i with
  | prefixCb | prefixDd | prefixEd | prefixFd | prefixDdCb | prefixFdCb => cases h
  | _ => rfl

/-- The delay form is the instruction 4 T-states later (R124(d), R286). -/
theorem exec_ddFd (x : IdxReg) {op : Instr} (h : op.unaffected = true) (s : State) :
    exec (.ddFd x op) s = exec op (s.mapCore (·.spend 4)) :=
  (if_pos h).trans (runPlain_of_unaffected h _)

/-! ### Every instruction -/

/-- The cases go by how the step ends: with a mark, as a condition says, with a block iteration, or in the one way of all
others. -/
theorem exec_completes {i : Instr} (hwf : i.wellFormed = true) (hlone : i.isLonePrefix = false) (s : State) :
    Completes s (exec i s) := by
  induction i generalizing s with
  | prefixCb | prefixDd | prefixEd | prefixFd | prefixDdCb | prefixFdCb => cases hlone
  | ddFd x op ih =>
    have hop : op.unaffected = true := hwf
    obtain ⟨hwf, hlone, -⟩ := whole_of_unaffected hop
    obtain ⟨t, ht, htime⟩ := ih hwf hlone (s.mapCore (·.spend 4))
    rw [State.core_mapCore, Module.spend_t] at htime
    exact ⟨t, (exec_ddFd x hop s).trans ht, by omega⟩
  | ei | ignoredPrefix | ldAI | ldAR => exact completes_setCore (Nat.add_le_add_left (by decide) _)
  | jrCc | jpCcNn | djnz | callCcNn | retCc =>
    exact completes_ite (completes_ended (by simp [relativeJump, State.popped]) (by decide))
      (completes_ended (by simp) (by decide))
  | ini => exact completes_inBlock s 1 1 false
  | ind => exact completes_inBlock s (-1) (-1) false
  | outi => exact completes_outBlock s 1 false
  | outd => exact completes_outBlock s (-1) false
  | inir | indr => exact completes_inBlock s _ _ true
  | otir | otdr => exact completes_outBlock s _ true
  | ldir | lddr => exact completes_transferRepeat s _
  | cpir | cpdr => exact completes_searchRepeat s _
  | _ =>
    exact completes_ended
      (by simp [relativeJump, State.popped, State.leaveHandler, core_transferOnce, transferred, searchOnce]) (by decide)

end Sys2Proof.Machine
end

section
/-!
The fetch of an instruction whose first byte, CB, DD, ED or FD, has been fetched (O51).
-/

namespace Sys2Proof.Machine

variable {rest : List Byte}

/-! ### Two opcode bytes -/

theorem isPrefix_prefixByte (x : IdxReg) : isPrefix x.prefixByte = true := by cases x <;> rfl

/-- After DD or FD the look-ahead decides whether a second opcode byte is fetched (R132). -/
theorem fetchesSecond_prefixByte (x : IdxReg) (ahead : Byte) :
    fetchesSecond x.prefixByte ahead = !cancelsPrefix ahead := by
  cases x <;> simp [fetchesSecond, IdxReg.prefixByte]

/-- After CB, DD, ED or FD a second opcode byte is fetched, or the byte is an ignored DD or FD (R132, R285). -/
theorem fetchesSecond_or_ignored {b0 : Byte} (h : isPrefix b0 = true) (ahead : Byte) :
    fetchesSecond b0 ahead = true ∨ ∃ x : IdxReg, b0 = x.prefixByte ∧ cancelsPrefix ahead = true := by
  obtain rfl | rfl | ⟨x, rfl⟩ := (isPrefix_iff b0).mp h
  · exact .inl rfl
  · exact .inl rfl
  · rw [fetchesSecond_prefixByte]
    cases cancelsPrefix ahead with
    | true => exact .inr ⟨x, rfl, rfl⟩
    | false => exact .inl rfl

/-- Where a second opcode byte is fetched, the instruction takes it. -/
theorem shrinks_of_fetchesSecond {b0 op : Byte} (hb0 : isPrefix b0 = true) (h : fetchesSecond b0 op = true) :
    Shrinks rest (decode (b0 :: op :: rest)) := by
  obtain rfl | rfl | ⟨x, rfl⟩ := (isPrefix_iff b0).mp hb0
  · exact shrinks_noOperand (decodeCb op)
  · exact shrinks_decodeEd op
  · rw [fetchesSecond_prefixByte, Bool.not_eq_true'] at h
    rw [decode_prefixByte]
    exact shrinks_decodeIdx x h

/-- CB, DD, ED or FD and an opcode are two M1 cycles (R46). -/
theorem m1Count_of_isPrefix {i : Instr} {b0 b1 : Byte} {operands : List Byte} (henc : encode i = b0 :: b1 :: operands)
    (h : isPrefix b0 = true) : m1Count i = 2 := by
  rw [m1Count, henc]
  exact if_pos h

/-! ### Fetching -/

/-- The state with PC past `bytes` more bytes and R counting `m1` more M1 cycles. -/
def State.pastFetch (s : State) (bytes m1 : Nat) : State :=
  s.mapCore fun c => { c with pc := c.pc + BitVec.ofNat 16 bytes, r := refreshN m1 c.r }

theorem State.pastFetch_zero (s : State) : s.pastFetch 0 0 = s := by
  have hpc : s.core.pc + BitVec.ofNat 16 0 = s.core.pc := BitVec.add_zero _
  rw [State.pastFetch, State.mapCore, hpc]
  exact State.setCore_core s

/-- Operand bytes are fetched by no M1 cycle (R46). -/
theorem State.pastFetch_operands (s : State) (bytes m1 operands : Nat) :
    (s.pastFetch bytes m1).pastFetch operands 0 = s.pastFetch (bytes + operands) m1 := by
  simp only [State.pastFetch, State.mapCore, State.core_setCore, State.setCore_setCore, ← BitVec.ofNat_add_ofNat,
    ← BitVec.add_assoc]
  rfl

/-- The bytes at PC are the first one, then those at the next PC. -/
theorem bytesAtPc_succ (s : State) (m1 n : Nat) :
    s.bytesAtPc (n + 1) = s.readByte s.core.pc :: (s.pastFetch 1 m1).bytesAtPc n := by
  induction n with
  | zero => simp [State.bytesAtPc]
  | succ n ih =>
    have hread : ∀ a, (s.pastFetch 1 m1).readByte a = s.readByte a := State.readByte_setCore s _ rfl rfl
    have haddr : s.core.pc + BitVec.ofNat 16 (n + 1) = (s.pastFetch 1 m1).core.pc + BitVec.ofNat 16 n := by
      rw [State.pastFetch, State.core_mapCore, Nat.add_comm n 1, ← BitVec.ofNat_add_ofNat, ← BitVec.add_assoc]
    rw [State.bytesAtPc, ih, haddr, ← hread (_ + _)]
    rfl

/-- With no hook an opcode fetch reads the byte at PC and moves past it (R16, R98). -/
theorem afterOpcode_of_identity {s : State} (hook : s.cfg.trdosHook = .identity) :
    s.opcodeByte = s.readByte s.core.pc ∧ s.afterOpcode = s.pastFetch 1 1 := by
  have hhooked : s.hooked = s := by rw [State.hooked, hook]
  rw [State.opcodeByte, State.afterOpcode, hhooked]
  exact ⟨rfl, rfl⟩

theorem fetchOperands_eq {s : State} {pre : List Byte} {i : Instr} (h : decode (pre ++ s.bytesAtPc 2) = some (i, rest)) :
    s.fetchOperands pre = some (i, s.pastFetch (2 - rest.length) 0) := by
  rw [State.fetchOperands, h]
  rfl

theorem fetchAfter_second {s : State} {b0 : Byte} (h : fetchesSecond b0 (s.readByte s.core.pc) = true) :
    s.fetchAfter b0 = s.afterOpcode.fetchOperands [b0, s.opcodeByte] := if_pos h

theorem fetchAfter_ignored {s : State} (x : IdxReg) (h : cancelsPrefix (s.readByte s.core.pc) = true) :
    s.fetchAfter x.prefixByte = some (.ignoredPrefix x, s) := by
  rw [State.fetchAfter, fetchesSecond_prefixByte, h]
  cases x <;> rfl

/-- What is fetched is an instruction that `exec` gives a meaning of its own. -/
def FetchesWhole (p : Option (Instr × State)) : Prop :=
  ∃ i s, p = some (i, s) ∧ i.wellFormed = true ∧ i.isLonePrefix = false

theorem fetchesWhole_fetchOperands (s : State) (b0 b1 : Byte) : FetchesWhole (s.fetchOperands [b0, b1]) := by
  obtain ⟨i, rest, hdecode, hwf, hlone, -⟩ := decoderTotal b0 b1 (s.readByte (s.core.pc + 0)) (s.readByte (s.core.pc + 1))
  exact ⟨i, _, fetchOperands_eq hdecode, hwf, hlone⟩

theorem fetchesWhole_fetchAfter (s : State) {b0 : Byte} (h : isPrefix b0 = true) : FetchesWhole (s.fetchAfter b0) := by
  obtain hsecond | ⟨x, rfl, hahead⟩ := fetchesSecond_or_ignored h (s.readByte s.core.pc)
  · rw [fetchAfter_second hsecond]
    exact fetchesWhole_fetchOperands _ _ _
  · exact ⟨_, _, fetchAfter_ignored x hahead, rfl, rfl⟩

/-! ### What the fetch takes -/

/-- Four bytes are enough for the answer to be no term of a byte that stands alone (R132). -/
theorem isLonePrefix_of_decode {bs : List Byte} {i : Instr} (h : decode bs = some (i, rest)) (hlen : 4 ≤ bs.length) :
    i.isLonePrefix = false := by
  have hans := decode_answers bs
  rw [h] at hans
  obtain ⟨-, hlone, -⟩ := hans
  exact Bool.eq_false_iff.mpr fun hi => Nat.not_le_of_lt (hlone hi) hlen

/-- The instruction of a second opcode fetch has two M1 cycles and leaves at most the two operand bytes it may have had. -/
theorem second_opcode_taken {b0 op n0 n1 : Byte} {i : Instr} (hb0 : isPrefix b0 = true)
    (hsecond : fetchesSecond b0 op = true) (h : decode [b0, op, n0, n1] = some (i, rest)) :
    rest.length ≤ 2 ∧ m1Count i = 2 := by
  have hrest : rest.length ≤ 2 := shrinks_of_fetchesSecond hb0 hsecond _ h
  refine ⟨hrest, ?_⟩
  have henc := encodeOfDecode _ _ _ h
  match hi : encode i with
  | [] => exact absurd hi (encode_ne_nil i)
  | [b] =>
    rw [hi] at henc
    obtain rfl : rest = [op, n0, n1] := List.tail_eq_of_cons_eq henc
    exact absurd hrest (Nat.not_succ_le_self 2)
  | b :: b1 :: operands =>
    rw [hi] at henc
    obtain rfl : b = b0 := List.head_eq_of_cons_eq henc
    exact m1Count_of_isPrefix hi hb0

/-- With no hook what is fetched after CB, DD, ED or FD is the instruction of that byte and the bytes at PC (R132). -/
theorem fetchAfter_of_identity {s : State} {b0 : Byte} {i : Instr} (hook : s.cfg.trdosHook = .identity)
    (hb0 : isPrefix b0 = true) (h : decode (b0 :: s.bytesAtPc 3) = some (i, rest)) :
    s.fetchAfter b0 = some (i, s.pastFetch (3 - rest.length) (m1Count i - 1)) := by
  obtain hsecond | ⟨x, rfl, hahead⟩ := fetchesSecond_or_ignored hb0 (s.readByte s.core.pc)
  · obtain ⟨hbyte, hafter⟩ := afterOpcode_of_identity hook
    rw [bytesAtPc_succ s 1] at h
    obtain ⟨hrest, hm1⟩ := second_opcode_taken hb0 hsecond h
    have hpc : 1 + (2 - rest.length) = 3 - rest.length := by omega
    rw [fetchAfter_second hsecond, hbyte, hafter, fetchOperands_eq h, State.pastFetch_operands, hpc, hm1]
  · rw [decode_prefixByte, bytesAtPc_succ s 1, decodeIdx_ignored x hahead] at h
    cases h
    have hm1 : m1Count (.ignoredPrefix x) = 1 := by cases x <;> rfl
    rw [fetchAfter_ignored x hahead, hm1]
    exact congrArg (fun t => some (_, t)) (State.pastFetch_zero s).symm

theorem m1Count_decodeIdxCb (x : IdxReg) (d op : Byte) : m1Count (decodeIdxCb x d op) = 2 := by
  obtain ⟨-, -, henc⟩ := decodeIdxCb_whole x d op
  exact m1Count_of_isPrefix henc (isPrefix_prefixByte x)

/-- DD CB and FD CB: the displacement and the opcode are fetched as operands, by no M1 cycle (R125, R132). -/
theorem fetchOperands_idxCb {s : State} (x : IdxReg) {i : Instr}
    (h : decode ([x.prefixByte, 0xCB] ++ s.bytesAtPc 3) = some (i, rest)) :
    s.fetchOperands [x.prefixByte, 0xCB] = some (i, s.pastFetch (3 - rest.length) (m1Count i - 2)) := by
  cases (decode_idxCbForm x _ _).symm.trans h
  rw [m1Count_decodeIdxCb]
  exact fetchOperands_eq (rest := []) (decode_idxCbForm x _ _)

/-! ### The lone prefixes -/

/-- CB, DD, ED or FD alone goes on with the fetch of a second opcode byte, DD CB or FD CB with that of operands (R132). -/
theorem lonePrefix_cases {i : Instr} (h : i.isLonePrefix = true) :
    (∃ b0, isPrefix b0 = true ∧ encode i = [b0] ∧ ∀ s, exec i s = runNext (s.fetchAfter b0)) ∨
    (∃ x : IdxReg, encode i = [x.prefixByte, 0xCB] ∧ ∀ s, exec i s = runNext (s.fetchOperands [x.prefixByte, 0xCB])) := by
  cases i with
  | prefixCb => exact .inl ⟨0xCB, rfl, rfl, fun _ => rfl⟩
  | prefixDd => exact .inl ⟨0xDD, rfl, rfl, fun _ => rfl⟩
  | prefixEd => exact .inl ⟨0xED, rfl, rfl, fun _ => rfl⟩
  | prefixFd => exact .inl ⟨0xFD, rfl, rfl, fun _ => rfl⟩
  | prefixDdCb => exact .inr ⟨.ix, rfl, fun _ => rfl⟩
  | prefixFdCb => exact .inr ⟨.iy, rfl, fun _ => rfl⟩
  | _ => cases h

theorem runNext_completes {p : Option (Instr × State)} (h : FetchesWhole p) : ∃ t, runNext p = .next t := by
  obtain ⟨i, s, rfl, hwf, hlone⟩ := h
  obtain ⟨t, ht, -⟩ := exec_completes hwf hlone s
  exact ⟨t, (runFetched_eq_exec hlone s).trans ht⟩

theorem lonePrefix_completes {i : Instr} (h : i.isLonePrefix = true) (s : State) : ∃ t, exec i s = .next t := by
  obtain ⟨b0, hb0, -, hexec⟩ | ⟨x, -, hexec⟩ := lonePrefix_cases h <;> rw [hexec]
  · exact runNext_completes (fetchesWhole_fetchAfter s hb0)
  · exact runNext_completes (fetchesWhole_fetchOperands s _ _)

theorem runNext_eq_exec {p : Option (Instr × State)} {i : Instr} {s : State} (hp : p = some (i, s))
    (h : i.isLonePrefix = false) : runNext p = exec i s := by
  subst hp
  exact runFetched_eq_exec h s

/-- With no hook a byte that stands alone is the instruction that the bytes at PC complete (R132). -/
theorem exec_lonePrefix {i j : Instr} {s : State} (hi : i.isLonePrefix = true) (hook : s.cfg.trdosHook = .identity)
    (h : decode (encode i ++ s.bytesAtPc 3) = some (j, rest)) :
    exec i s = exec j (s.pastFetch (3 - rest.length) (m1Count j - (encode i).length)) := by
  obtain ⟨b0, hb0, henc, hexec⟩ | ⟨x, henc, hexec⟩ := lonePrefix_cases hi <;> rw [henc] at h ⊢ <;> rw [hexec]
  · exact runNext_eq_exec (fetchAfter_of_identity hook hb0 h) (isLonePrefix_of_decode h (Nat.le_refl 4))
  · exact runNext_eq_exec (fetchOperands_idxCb x h) (isLonePrefix_of_decode h (Nat.le_succ 4))

/-- A delay form's bytes are DD or FD and the instruction's; DD or FD and the opcode are its two M1 cycles (R286, R46). -/
theorem encoded_ddFd (x : IdxReg) {op : Instr} (h : op.unaffected = true) :
    Encoded (.ddFd x op) (x.prefixByte :: encode op) 2 := by
  obtain ⟨b, operands, henc⟩ := List.exists_cons_of_ne_nil (encode_ne_nil op)
  exact encoded_of_whole ⟨h, rfl, rfl⟩ rfl
    (m1Count_of_isPrefix (congrArg (x.prefixByte :: ·) henc) (isPrefix_prefixByte x))

/-- Settles O51: the delay form runs its instruction 4 T-states later, a byte that stands alone the one its fetch completes. -/
theorem prefixedForms : Obligations.PrefixedForms := by
  refine ⟨fun x op hop => ⟨encoded_ddFd x hop, fun s => ⟨exec_ddFd x hop s, ?_⟩⟩,
    fun i s hi => ⟨lonePrefix_completes hi s, fun j rest => exec_lonePrefix hi⟩⟩
  obtain ⟨hwf, hlone, -⟩ := whole_of_unaffected hop
  obtain ⟨t, ht, htime⟩ := exec_completes hwf hlone (s.mapCore (·.spend 4))
  rw [State.core_mapCore, Module.spend_t] at htime
  exact ⟨t, (exec_ddFd x hop s).trans ht, htime⟩

end Sys2Proof.Machine
end

section
/-!
The general-purpose arithmetic and CPU control group, the statements of 44_general_cpu_control.md (O48 to O50).
-/

namespace Sys2Proof.Machine

/-! ### Steps that write A and F (R430) -/

section
variable {i : Instr} {n : Nat} {rule : State → State → Prop}

/-- A step that writes A and F and nothing else. -/
theorem runs_writeAF (a f : State → Byte) (he : ∀ s, exec i s = s.doneFlags n { s.core with a := a s, f := f s })
    (hrule : ∀ s t, t.core.a = a s → t.core.f = f s → rule s t) :
    Runs i n true fun s t => Quiet s t ∧ t.core = { s.core.stepped t.core with a := t.core.a, f := t.core.f } ∧
      rule s t := by
  refine runs_flagWrite (fun s c => { c with a := a s, f := f s }) (fun _ => (RegisterWrite.setReg8 .a _).comp (.f _)) he
    fun s t hquiet hcore => ?_
  have ha : t.core.a = a s := congrArg Module.a hcore
  have hf : t.core.f = f s := congrArg Module.f hcore
  exact ⟨hquiet, by rw [ha, hf]; exact hcore, hrule s t ha hf⟩

/-- A step that writes F and nothing else. -/
theorem runs_writeF (f : State → Byte) (he : ∀ s, exec i s = s.doneFlags n { s.core with f := f s })
    (hrule : ∀ s t, t.core.f = f s → rule s t) :
    Runs i n true fun s t => Quiet s t ∧ t.core = { s.core.stepped t.core with f := t.core.f } ∧ rule s t := by
  refine runs_flagWrite (fun s c => { c with f := f s }) (fun _ => .f _) he fun s t hquiet hcore => ?_
  have hf : t.core.f = f s := congrArg Module.f hcore
  exact ⟨hquiet, by rw [hf]; exact hcore, hrule s t hf⟩

end

/-! ### DAA (R270) -/

/-- DAA takes A and F from `a` and `f` to `a'` and `f'`. -/
def DaaRule (a f a' f' : Byte) : Prop :=
  (a'.toNat : Int) = (if flagN f = true then (a.toNat : Int) - daaAmount a.toNat (flagH f) (flagC f)
    else (a.toNat : Int) + daaAmount a.toNat (flagH f) (flagC f)) % 256 ∧
  FlagsSZXY a' f' ∧ ParityRule a' f' ∧
  flagH f' = (if flagN f = true then flagH f && decide (a.toNat % 16 < 6) else decide (a.toNat % 16 > 9)) ∧
  flagN f' = flagN f ∧ flagC f' = (decide (a.toNat > 153) || flagC f)

theorem toNat_daaCorrection (a f : Byte) : (daaCorrection a f).toNat = daaAmount a.toNat (flagH f) (flagC f) := by
  have hlow : a &&& 0x0F > 9 ↔ a.toNat % 16 > 9 := lowNibble_lt 9 a
  have hhigh : a > 0x99 ↔ a.toNat > 153 := Iff.rfl
  simp only [daaCorrection, daaAmount, Bool.or_eq_true, decide_eq_true_eq, hlow, hhigh]
  split <;> split <;> rfl

theorem toNat_daaResult (a f : Byte) : ((daaResult a f).toNat : Int) =
    (if flagN f = true then (a.toNat : Int) - daaAmount a.toNat (flagH f) (flagC f)
      else (a.toNat : Int) + daaAmount a.toNat (flagH f) (flagC f)) % 256 := by
  have hlt := (daaCorrection a f).isLt
  rw [← toNat_daaCorrection, daaResult]
  split
  · rw [BitVec.toNat_sub]; omega
  · rw [BitVec.toNat_add]; omega

theorem daaRule_daa (a f : Byte) : DaaRule a f (daaResult a f) (daaFlags a f) := by
  have hlow : a &&& 0x0F > 9 ↔ a.toNat % 16 > 9 := lowNibble_lt 9 a
  have hborrow : a &&& 0x0F < 6 ↔ a.toNat % 16 < 6 := lowNibble_lt a 6
  refine ⟨toNat_daaResult a f, by simp [FlagsSZXY, daaFlags, beq_bits], (flagP_packFlags ..).trans (parity_eq _), ?half,
    flagN_packFlags .., flagC_packFlags ..⟩
  case half => simp only [daaFlags, flagH_packFlags, hlow, hborrow]

/-! ### CPL, NEG, CCF and SCF (R271 to R274, R282) -/

theorem toNat_xor_ff (a : Byte) : (a ^^^ 0xFF).toNat = 255 - a.toNat := by
  have hnot : a ^^^ 0xFF = ~~~a := BitVec.xor_allOnes
  rw [hnot, BitVec.toNat_not]

/-- There is a borrow unless A is 0, and overflow when A is 0x80 (R272). -/
theorem flagsCP_neg (v : Byte) :
    flagC (subFlags 0 v false) = decide (v ≠ 0) ∧ flagP (subFlags 0 v false) = decide (v = 0x80) := by
  decide +revert

/-- Y and X by the setting of `P_SCF_CCF_XY` (R282). -/
theorem flagsYX_by_setting {s : State} {f : Byte} (h : FlagsYX (xyScfCcf s.cfg.scfCcfXy s.core) f) :
    (s.cfg.scfCcfXy = .a → FlagsYX s.core.a f) ∧ (s.cfg.scfCcfXy = .aOrF → FlagsYX (s.core.a ||| s.core.f) f) ∧
      (s.cfg.scfCcfXy = .zilogQ → FlagsYX ((s.core.q ^^^ s.core.f) ||| s.core.a) f) :=
  ⟨fun hk => by rwa [hk] at h, fun hk => by rwa [hk] at h, fun hk => by rwa [hk] at h⟩

/-- Settles O48: each instruction writes A and F, or F, by its rule. -/
theorem accumulatorAdjust : Obligations.AccumulatorAdjust := by
  refine ⟨
    ⟨?daa, runs_writeAF _ _ (fun _ => rfl) fun s t ha hf => ?daaRule⟩,
    ⟨?cpl, runs_writeAF _ _ (fun _ => rfl) fun s t ha hf => ?cplRule⟩,
    fun y => ⟨?neg, runs_writeAF _ _ (fun _ => rfl) fun s t ha hf => ?negRule⟩,
    ⟨?ccf, runs_writeF _ (fun _ => rfl) fun s t hf => ?ccfRule⟩,
    ⟨?scf, runs_writeF _ (fun _ => rfl) fun s t hf => ?scfRule⟩⟩
  case daaRule => rw [ha, hf]; exact daaRule_daa _ _
  case cplRule => rw [ha, hf]; exact ⟨toNat_xor_ff _, by simp [cplFlags, FlagsYX, FlagsKeptSZP]⟩
  case negRule => rw [ha, hf]; exact ⟨subtractorRule_sub 0 _ false _, flagsYX_sub 0 _ false _, flagsCP_neg _⟩
  case ccfRule =>
    rw [hf]
    exact ⟨flagH_packFlags .., flagC_packFlags .., flagN_packFlags .., by simp [ccfFlags, FlagsKeptSZP],
      flagsYX_by_setting (by simp [ccfFlags, FlagsYX])⟩
  case scfRule =>
    rw [hf]
    exact ⟨flagH_packFlags .., flagC_packFlags .., flagN_packFlags .., by simp [scfFlags, FlagsKeptSZP],
      flagsYX_by_setting (by simp [scfFlags, FlagsYX])⟩
  case daa | cpl | ccf | scf => exact encoded_of_whole ⟨rfl, rfl, rfl⟩ rfl rfl
  case neg => cases y using field3_cases <;> exact encoded_of_whole ⟨rfl, rfl, rfl⟩ rfl rfl

/-! ### Decimal sums (R243, R245, R270) -/

/-- A number below 100 is its two digits, and so is its byte. -/
theorem exists_digits {n : Nat} (h : n < 100) :
    ∃ tens units, tens < 10 ∧ units < 10 ∧ n = 10 * tens + units ∧ (bcd n).toNat = 16 * tens + units := by
  have htens : n / 10 < 10 := by omega
  refine ⟨n / 10, n % 10, htens, Nat.mod_lt _ (by decide), (Nat.div_add_mod n 10).symm, ?_⟩
  rw [bcd, BitVec.toNat_ofNat, Nat.mod_eq_of_lt htens, Nat.mod_eq_of_lt (by omega), Nat.mul_comm]

/-- `X` and `Y` add up to `Z`, each two decimal digits, with the carries `cu` out of the units and `ct` out of the tens. -/
structure DecimalSum (X Y Z cu ct : Nat) : Prop where
  carries : cu ≤ 1 ∧ ct ≤ 1
  digitsX : X % 16 < 10 ∧ X < 160
  digitsY : Y % 16 < 10 ∧ Y < 160
  digitsZ : Z % 16 < 10 ∧ Z < 160
  units : X % 16 + Y % 16 = 10 * cu + Z % 16
  total : X + Y + 6 * cu = 160 * ct + Z

theorem exists_decimalSum {x y z : Nat} (hx : x < 100) (hy : y < 100) (hz : z = (x + y) % 100) :
    ∃ cu ct, DecimalSum (bcd x).toNat (bcd y).toNat (bcd z).toNat cu ct ∧ x + y = 100 * ct + z := by
  obtain ⟨zt, zu, hzt, hzu, hz', hZ⟩ := exists_digits (n := z) (by omega)
  obtain ⟨xt, xu, hxt, hxu, rfl, hX⟩ := exists_digits hx
  obtain ⟨yt, yu, hyt, hyu, rfl, hY⟩ := exists_digits hy
  obtain ⟨ct, hct⟩ : ∃ ct, 10 * xt + xu + (10 * yt + yu) = 100 * ct + z := ⟨_, by rw [hz, Nat.div_add_mod]⟩
  obtain ⟨cu, hcu⟩ : ∃ cu, xu + yu = 10 * cu + zu := ⟨(xu + yu) / 10, by omega⟩
  clear hx hy hz
  rw [hX, hY, hZ]
  refine ⟨cu, ct, ⟨?_, ?_, ?_, ?_, ?_, ?_⟩, hct⟩ <;> omega

/-- The binary sum shows the decimal carries, by a digit past 9 or by its own half carry and carry. -/
theorem DecimalSum.carries_of_add {X Y Z cu ct a : Nat} (h : DecimalSum X Y Z cu ct) (ha : a = (X + Y) % 256) :
    (a % 16 > 9 ∨ X % 16 + Y % 16 > 15 ↔ cu = 1) ∧ (a > 153 ∨ X + Y > 255 ↔ ct = 1) := by
  obtain ⟨hcarries, hX, hY, hZ, hunits, htotal⟩ := h
  constructor <;> omega

/-- The binary difference shows the decimal borrows, which are the carries of adding it back. -/
theorem DecimalSum.borrows_of_sub {X Y Z cu ct a : Nat} (h : DecimalSum Y Z X cu ct)
    (ha : (a : Int) = ((X : Int) - Y) % 256) :
    (a % 16 > 9 ∨ (X % 16 : Int) - (Y % 16 : Nat) < 0 ↔ cu = 1) ∧ (a > 153 ∨ (X : Int) - Y < 0 ↔ ct = 1) := by
  obtain ⟨hcarries, hX, hY, hZ, hunits, htotal⟩ := h
  obtain rfl | rfl : ct = 0 ∨ ct = 1 := by omega
  · have hdiff : a = X - Y := by omega
    constructor <;> omega
  · have hdiff : a = X + 256 - Y := by omega
    constructor <;> omega

/-- DAA corrects by 6 for a carry out of the units and by 0x60 for one out of the tens, and C is the latter. -/
theorem DaaRule.of_carries {a f a' f' : Byte} {cu ct : Nat} (h : DaaRule a f a' f') (hcarries : cu ≤ 1 ∧ ct ≤ 1)
    (hlow : a.toNat % 16 > 9 ∨ flagH f = true ↔ cu = 1) (hhigh : a.toNat > 153 ∨ flagC f = true ↔ ct = 1) :
    (a'.toNat : Int) = (if flagN f = true then (a.toNat : Int) - (6 * cu + 96 * ct : Nat)
      else (a.toNat : Int) + (6 * cu + 96 * ct : Nat)) % 256 ∧ (flagC f' = true ↔ ct = 1) := by
  obtain ⟨ha', -, -, -, -, hC'⟩ := h
  have hamount : daaAmount a.toNat (flagH f) (flagC f) = 6 * cu + 96 * ct := by
    simp only [daaAmount, hlow, hhigh]
    split <;> split <;> omega
  rw [hamount] at ha'
  exact ⟨ha', by rw [hC', Bool.or_eq_true, decide_eq_true_eq, hhigh]⟩

theorem daa_after_add {x y : Nat} (hx : x < 100) (hy : y < 100) {a f a' f' : Byte}
    (hadd : AdderRule (bcd x) (bcd y) false a f) (hdaa : DaaRule a f a' f') :
    a' = bcd ((x + y) % 100) ∧ (flagC f' = true ↔ 100 ≤ x + y) := by
  obtain ⟨ha, -, hH, -, -, hN, hC⟩ := hadd
  obtain ⟨cu, ct, hsum, hxy⟩ := exists_decimalSum hx hy rfl
  rw [carryNat_eq, Bool.toNat_false, Nat.add_zero] at ha hH hC
  obtain ⟨hlow, hhigh⟩ := hsum.carries_of_add ha
  rw [← decide_eq_true_iff (p := _ > 15), ← hH] at hlow
  rw [← decide_eq_true_iff (p := _ > 255), ← hC] at hhigh
  obtain ⟨ha', hC'⟩ := hdaa.of_carries hsum.carries hlow hhigh
  obtain ⟨hcarries, hX, hY, hZ, hunits, htotal⟩ := hsum
  rw [hN, if_neg Bool.false_ne_true] at ha'
  exact ⟨BitVec.eq_of_toNat_eq (by omega), by rw [hC']; omega⟩

theorem daa_after_sub {x y : Nat} (hx : x < 100) (hy : y < 100) {a f a' f' : Byte}
    (hsub : SubtractorRule (bcd x) (bcd y) false a f) (hdaa : DaaRule a f a' f') :
    a' = bcd ((x + 100 - y) % 100) ∧ (flagC f' = true ↔ x < y) := by
  obtain ⟨ha, -, -, hH, -, -, hN, hC⟩ := hsub
  have hz : (x + 100 - y) % 100 < 100 := Nat.mod_lt _ (by decide)
  obtain ⟨cu, ct, hsum, hxy⟩ := exists_decimalSum (z := x) hy hz (by omega)
  rw [carryNat_eq, Bool.toNat_false, Int.natCast_zero, Int.sub_zero] at ha hH hC
  obtain ⟨hlow, hhigh⟩ := hsum.borrows_of_sub ha
  rw [← decide_eq_true_iff (p := _ < 0), ← hH] at hlow
  rw [← decide_eq_true_iff (p := _ < 0), ← hC] at hhigh
  obtain ⟨ha', hC'⟩ := hdaa.of_carries hsum.carries hlow hhigh
  obtain ⟨hcarries, hX, hY, hZ, hunits, htotal⟩ := hsum
  rw [hN, if_pos rfl] at ha'
  exact ⟨BitVec.eq_of_toNat_eq (by omega), by rw [hC']; omega⟩

/-- `exec` answers one state, so what a run leads to holds of it. -/
theorem Runs.post_of_next {i : Instr} {n : Nat} {wrote : Bool} {post : State → State → Prop} (h : Runs i n wrote post)
    {s t : State} (ht : exec i s = .next t) : post s t := by
  obtain ⟨t', ht', -, hpost⟩ := h s
  cases ht.symm.trans ht'
  exact hpost

/-- Settles O49: from what ADD, SUB and DAA do (O44, O45, O48) and the carries of a decimal sum. -/
theorem daaIsDecimal : Obligations.DaaIsDecimal := by
  intro x y s t u hx
  obtain ⟨⟨-, runsDaa⟩, -⟩ := accumulatorAdjust
  refine ⟨fun ht hu => ?add, fun ht hu => ?sub⟩
  case add =>
    obtain ⟨⟨-, formAddN, -⟩, -⟩ := addAndAdc
    obtain ⟨-, runsAdd⟩ := formAddN (bcd y)
    obtain ⟨-, -, hadd⟩ := runsAdd.post_of_next ht
    obtain ⟨-, -, hdaa⟩ := runsDaa.post_of_next hu
    rw [hx] at hadd
    exact daa_after_add x.isLt y.isLt hadd hdaa
  case sub =>
    obtain ⟨⟨-, formSubN, -⟩, -⟩ := subSbcAndCp
    obtain ⟨-, runsSub⟩ := formSubN (bcd y)
    obtain ⟨-, -, hsub, -⟩ := runsSub.post_of_next ht
    obtain ⟨-, -, hdaa⟩ := runsDaa.post_of_next hu
    rw [hx] at hsub
    exact daa_after_sub x.isLt y.isLt hsub hdaa

/-! ### CPU control (R275 to R281, R283, R285) -/

namespace RegisterWrite

theorem halted (v : Bool) : RegisterWrite fun c => { c with halted := v } := ⟨fun _ => rfl, fun _ => rfl, fun _ _ => rfl⟩

theorem iff1_iff2 (v w : Bool) : RegisterWrite fun c => { c with iff1 := v, iff2 := w } :=
  ⟨fun _ => rfl, fun _ => rfl, fun _ _ => rfl⟩

theorem im (m : IntMode) : RegisterWrite fun c => { c with im := m } := ⟨fun _ => rfl, fun _ => rfl, fun _ _ => rfl⟩

end RegisterWrite

/-- R283's ranges of undefined ED opcodes are those of the instruction set's check. -/
theorem isNoni_of_ranges {op : Byte} (h : op.toNat < 0x40 ∨ (0x80 ≤ op.toNat ∧ op.toNat < 0xA0) ∨
    (0xA0 ≤ op.toNat ∧ op.toNat < 0xC0 ∧ 4 ≤ op.toNat % 8) ∨ 0xC0 ≤ op.toNat ∨ op.toNat = 0x77 ∨ op.toNat = 0x7F) :
    isNoni op = true := by
  decide +revert

/-- Settles O50: register writes, but for EI and the ignored DD or FD, whose steps leave a mark. -/
theorem cpuControl : Obligations.CpuControl := by
  refine ⟨
    ⟨?nop, runs_registerWrite (fun _ c => c) (fun _ => .unchanged) fun _ => rfl⟩,
    ⟨?halt, runs_registerWrite _ (fun _ => .halted true) fun _ => rfl⟩,
    ⟨?di, runs_registerWrite _ (fun _ => .iff1_iff2 false false) fun _ => rfl⟩,
    ⟨?ei, fun s => ⟨_, rfl, quiet_setCore s _ rfl rfl, State.core_setCore _ _⟩⟩,
    fun k => ⟨?im0, runs_registerWrite _ (fun _ => .im .im0) fun _ => rfl⟩,
    fun k => ⟨?im1, runs_registerWrite _ (fun _ => .im .im1) fun _ => rfl⟩,
    fun k => ⟨?im2, runs_registerWrite _ (fun _ => .im .im2) fun _ => rfl⟩,
    fun op hop => ⟨?noni, runs_registerWrite (fun _ c => c) (fun _ => .unchanged) fun _ => rfl⟩,
    fun x => ⟨rfl, ?m1, fun s => ⟨_, rfl, quiet_setCore s _ rfl rfl, State.core_setCore _ _⟩⟩⟩
  case nop | halt | di | ei => exact encoded_of_whole ⟨rfl, rfl, rfl⟩ rfl rfl
  case im0 => cases k using field2_cases <;> exact encoded_of_whole ⟨rfl, rfl, rfl⟩ rfl rfl
  case im1 | im2 => obtain rfl | rfl := k.eq_zero_or_eq_one <;> exact encoded_of_whole ⟨rfl, rfl, rfl⟩ rfl rfl
  case noni => exact encoded_of_whole (noni_whole (isNoni_of_ranges hop)) rfl rfl
  case m1 => cases x <;> rfl

end Sys2Proof.Machine
end

section
/-!
The 16-bit arithmetic group, the statements of 45_alu16.md (O52).
-/

namespace Sys2Proof.Machine

/-! ### Results and flags (R300 to R302) -/

/-- ADC HL,ss takes the words `a` and `b` and the carry `cin` to the result `r` and the flags `f` (R301). -/
def Adc16Rule (a b : Word) (cin : Bool) (r : Word) (f : Byte) : Prop :=
  r.toNat = (a.toNat + b.toNat + carryNat cin) % 65536 ∧ flagS f = r.getLsbD 15 ∧ flagZ f = decide (r = 0) ∧
    flagY f = r.getLsbD 13 ∧ flagX f = r.getLsbD 11 ∧
    flagH f = decide (a.toNat % 4096 + b.toNat % 4096 + carryNat cin > 4095) ∧
    flagP f = (a.getLsbD 15 == b.getLsbD 15 && r.getLsbD 15 != a.getLsbD 15) ∧ flagN f = false ∧
    flagC f = decide (a.toNat + b.toNat + carryNat cin > 65535)

/-- SBC HL,ss takes the words `a` and `b` and the borrow `cin` to the result `r` and the flags `f` (R302). -/
def Sbc16Rule (a b : Word) (cin : Bool) (r : Word) (f : Byte) : Prop :=
  (r.toNat : Int) = ((a.toNat : Int) - b.toNat - carryNat cin) % 65536 ∧ flagS f = r.getLsbD 15 ∧
    flagZ f = decide (r = 0) ∧ flagY f = r.getLsbD 13 ∧ flagX f = r.getLsbD 11 ∧
    flagH f = decide ((a.toNat % 4096 : Int) - (b.toNat % 4096 : Nat) - carryNat cin < 0) ∧
    flagP f = (a.getLsbD 15 != b.getLsbD 15 && r.getLsbD 15 != a.getLsbD 15) ∧ flagN f = true ∧
    flagC f = decide ((a.toNat : Int) - b.toNat - carryNat cin < 0)

theorem toNat_carryWord (cin : Bool) : (carryWord cin).toNat = carryNat cin := by cases cin <;> rfl

theorem add16Rule_add (a b : Word) (f : Byte) : Add16Rule a b (a + b) f (add16Flags a b f) :=
  ⟨BitVec.toNat_add a b, ⟨flagS_packFlags .., flagZ_packFlags .., flagP_packFlags ..⟩, flagH_packFlags ..,
    flagN_packFlags .., flagC_packFlags .., flagY_packFlags .., flagX_packFlags ..⟩

theorem adc16Rule_adc (a b : Word) (cin : Bool) : Adc16Rule a b cin (a + b + carryWord cin) (adc16Flags a b cin) := by
  have hresult : (a + b + carryWord cin).toNat = (a.toNat + b.toNat + carryNat cin) % 65536 := by
    rw [BitVec.toNat_add, BitVec.toNat_add, toNat_carryWord, Nat.mod_add_mod]
  refine ⟨hresult, flagS_packFlags .., (flagZ_packFlags ..).trans (beq_bits ..), flagY_packFlags .., flagX_packFlags ..,
    ?half, flagP_packFlags .., flagN_packFlags .., ?carry⟩
  case half => rw [carryNat_eq]; exact flagH_packFlags ..
  case carry => rw [carryNat_eq]; exact flagC_packFlags ..

theorem sbc16Rule_sbc (a b : Word) (cin : Bool) : Sbc16Rule a b cin (a - b - carryWord cin) (sbc16Flags a b cin) := by
  have hcarry : carryNat cin ≤ 1 := carryNat_eq cin ▸ Bool.toNat_le cin
  have hresult : ((a - b - carryWord cin).toNat : Int) = ((a.toNat : Int) - b.toNat - carryNat cin) % 65536 := by
    rw [BitVec.toNat_sub, BitVec.toNat_sub, toNat_carryWord]
    omega
  refine ⟨hresult, flagS_packFlags .., (flagZ_packFlags ..).trans (beq_bits ..), flagY_packFlags .., flagX_packFlags ..,
    (flagH_packFlags ..).trans ?half, flagP_packFlags .., flagN_packFlags .., (flagC_packFlags ..).trans ?borrow⟩
  case half | borrow => rw [← carryNat_eq, decide_eq_decide]; omega

/-! ### The meanings the forms share -/

/-- ADD, ADC and SBC HL,ss: HL and F become `r` and `f`, and MEMPTR the old HL + 1. -/
theorem runs_writeHlF {i : Instr} {n : Nat} {rule : State → Word → Byte → Prop} (r : State → Word) (f : State → Byte)
    (hrule : ∀ s, rule s (r s) (f s))
    (he : ∀ s, exec i s = s.doneFlags n { s.core.setHl (r s) with f := f s, memptr := s.core.hl + 1 }) :
    Runs i n true fun s t => Quiet s t ∧
      t.core = { s.core.stepped t.core with h := t.core.h, l := t.core.l, f := t.core.f, memptr := s.core.hl + 1 } ∧
      rule s t.core.hl t.core.f := by
  refine runs_flagWrite (fun s c => { c.setHl (r s) with f := f s, memptr := s.core.hl + 1 })
    (fun s => (RegisterWrite.memptr _).comp ((RegisterWrite.f _).comp (.setRp .hl (r s)))) he fun s t hquiet hcore => ?_
  have hh : t.core.h = hiByte (r s) := congrArg Module.h hcore
  have hl : t.core.l = loByte (r s) := congrArg Module.l hcore
  have hf : t.core.f = f s := congrArg Module.f hcore
  have hhl : t.core.hl = r s := by rw [Module.hl, hh, hl, pair_hiByte_loByte]
  rw [hhl, hh, hl, hf]
  exact ⟨hquiet, hcore, hrule s⟩

/-- ADD IX,pp and ADD IY,pp (R303). -/
theorem runs_addIdx {i : Instr} (x : IdxReg) (pp : Xp) (he : ∀ s, exec i s = addIdxStep x pp s) :
    Runs i 15 true fun s t => Quiet s t ∧
      t.core = { (s.core.stepped t.core).setIdx x (t.core.idx x) with f := t.core.f, memptr := s.core.idx x + 1 } ∧
      Add16Rule (s.core.idx x) (s.core.xp x pp) (t.core.idx x) s.core.f t.core.f := by
  refine runs_flagWrite (fun s c => { c.setIdx x (s.core.idx x + s.core.xp x pp) with
      f := add16Flags (s.core.idx x) (s.core.xp x pp) s.core.f, memptr := s.core.idx x + 1 })
    (fun s => (RegisterWrite.memptr _).comp ((RegisterWrite.f _).comp (.setIdx x _))) he fun s t hquiet hcore => ?_
  have hx : t.core.idx x = s.core.idx x + s.core.xp x pp := by rw [hcore]; cases x <;> rfl
  have hf : t.core.f = add16Flags (s.core.idx x) (s.core.xp x pp) s.core.f := congrArg Module.f hcore
  rw [hx, hf]
  exact ⟨hquiet, hcore, add16Rule_add _ _ _⟩

/-- Settles O52: each form writes one word register, the additions and subtractions F and MEMPTR with it. -/
theorem pairArithmetic : Obligations.PairArithmetic := by
  refine ⟨
    fun ss => ⟨?addHl, runs_writeHlF (rule := fun s r f => Add16Rule s.core.hl (s.core.rp ss) r s.core.f f) _ _
      (fun _ => add16Rule_add _ _ _) fun _ => rfl⟩,
    fun ss => ⟨?adcHl, runs_writeHlF (rule := fun s => Adc16Rule s.core.hl (s.core.rp ss) (flagC s.core.f)) _ _
      (fun _ => adc16Rule_adc _ _ _) fun _ => rfl⟩,
    fun ss => ⟨?sbcHl, runs_writeHlF (rule := fun s => Sbc16Rule s.core.hl (s.core.rp ss) (flagC s.core.f)) _ _
      (fun _ => sbc16Rule_sbc _ _ _) fun _ => rfl⟩,
    fun pp => ⟨?addIx, runs_addIdx .ix pp fun _ => rfl⟩,
    fun pp => ⟨?addIy, runs_addIdx .iy pp fun _ => rfl⟩,
    fun ss => ⟨?incSs, runs_registerWrite (fun s c => c.setRp ss (s.core.rp ss + 1)) (fun _ => .setRp ss _) fun _ => rfl⟩,
    fun ss => ⟨?decSs, runs_registerWrite (fun s c => c.setRp ss (s.core.rp ss - 1)) (fun _ => .setRp ss _) fun _ => rfl⟩,
    ⟨?incIx, runs_registerWrite (fun s c => c.setIdx .ix (s.core.ix + 1)) (fun _ => .setIdx .ix _) fun _ => rfl⟩,
    ⟨?incIy, runs_registerWrite (fun s c => c.setIdx .iy (s.core.iy + 1)) (fun _ => .setIdx .iy _) fun _ => rfl⟩,
    ⟨?decIx, runs_registerWrite (fun s c => c.setIdx .ix (s.core.ix - 1)) (fun _ => .setIdx .ix _) fun _ => rfl⟩,
    ⟨?decIy, runs_registerWrite (fun s c => c.setIdx .iy (s.core.iy - 1)) (fun _ => .setIdx .iy _) fun _ => rfl⟩⟩
  case addHl | adcHl | sbcHl | incSs | decSs => cases ss <;> exact encoded_of_whole ⟨rfl, rfl, rfl⟩ rfl rfl
  case addIx | addIy => cases pp <;> exact encoded_of_whole ⟨rfl, rfl, rfl⟩ rfl rfl
  case incIx | incIy | decIx | decIy => exact encoded_of_whole ⟨rfl, rfl, rfl⟩ rfl rfl

end Sys2Proof.Machine
end

section
/-!
The rotate and shift group, the statements of 46_rotate_shift.md (O53).
-/

namespace Sys2Proof.Machine

/-! ### Opcodes by their fields (R126) -/

theorem opXYZ_eq_op8 (x : BitVec 2) (y z : BitVec 3) : opXYZ x y z = op8 (64 * x.toNat + 8 * y.toNat + z.toNat) := by
  decide +revert

theorem opXYZ_zero (y z : BitVec 3) : opXYZ 0 y z = op8 (8 * y.toNat + z.toNat) := by
  simpa using opXYZ_eq_op8 0 y z

/-! ### Flags (R320, R321, R325, R326) -/

/-- A CB rotate or shift takes the byte `v` and the flags `f` to the byte `r` and the flags `f'` (R321). -/
def CbRotRule (op : RotOp) (v f r f' : Byte) : Prop := RotRule op v (flagC f) r (flagC f') ∧ RotFlags r f'

theorem cbRotRule_rot (op : RotOp) (v f : Byte) :
    CbRotRule op v f (rotResult op v (flagC f)) (rotFlags op v (flagC f)) := by
  refine ⟨?carry, by simp [FlagsSZXY, rotFlags, beq_bits], flagH_packFlags ..,
    (flagP_packFlags ..).trans (parity_eq _), flagN_packFlags ..⟩
  case carry => rw [rotFlags, flagC_packFlags]; exact rotRule_rot op v _

/-- Every flag of a byte but C, as after IN, RLD and RRD (R325). -/
theorem rotFlags_inFlags (v f : Byte) : RotFlags v (inFlags v f) :=
  ⟨by simp [FlagsSZXY, inFlags, beq_bits], flagH_packFlags .., (flagP_packFlags ..).trans (parity_eq v),
    flagN_packFlags ..⟩

/-! ### Rotates of registers (R320, R322) -/

theorem rotatesA_of_exec {i : Instr} {byte : Nat} (op : RotOp) (henc : Encoded i [op8 byte] 1)
    (he : ∀ s, exec i s = rotAStep op s) : RotatesA i byte op := by
  refine ⟨henc, runs_writeAF _ _ he fun s t ha hf => ?_⟩
  rw [ha, hf, rotAFlags, flagC_packFlags]
  exact ⟨rotRule_rot op _ _, flagH_packFlags .., flagN_packFlags .., by simp [FlagsYX], by simp [FlagsKeptSZP]⟩

theorem exec_rotReg (op : RotOp) (r : Reg8) (s : State) : exec (rotReg op.code r) s = rotRegStep op r s := by
  cases op <;> rfl

theorem rotatesR_rotReg (op : RotOp) : RotatesR (rotReg op.code) op := by
  refine fun r => ⟨?enc, runs_flagWrite (fun s c => { c.setReg8 r (rotResult op (s.core.reg8 r) (flagC s.core.f)) with
    f := rotFlags op (s.core.reg8 r) (flagC s.core.f) })
    (fun _ => (RegisterWrite.f _).comp (.setReg8 r _)) (exec_rotReg op r) fun s t hquiet hcore => ?step⟩
  case enc =>
    rw [← opXYZ_zero]
    exact encoded_of_whole (rotReg_whole op.code r) (by cases op <;> rfl) (by cases op <;> rfl)
  case step =>
    have hf : t.core.f = rotFlags op (s.core.reg8 r) (flagC s.core.f) := congrArg Module.f hcore
    rw [hf]
    exact ⟨hquiet, _, hcore, cbRotRule_rot op _ _⟩

/-! ### Rotates of a byte in memory (R323, R324) -/

theorem RegisterWrite.copyTo (r : Option Reg8) (v : Byte) : RegisterWrite (copyTo r v) := by
  cases r with
  | none => exact .unchanged
  | some r => exact .setReg8 r v

theorem execRotMHl_eq (op : RotOp) (s : State) : execRotMHl op s =
    (s.writeByte s.core.hl (rotResult op (s.readByte s.core.hl) (flagC s.core.f))).doneFlags 15
      { s.core with f := rotFlags op (s.readByte s.core.hl) (flagC s.core.f) } := by
  rw [execRotMHl, State.core_writeByte]

theorem rotIdxStep_eq (x : IdxReg) (op : RotOp) (r : Option Reg8) (d : Byte) (s : State) : rotIdxStep x op r d s =
    (s.writeByte (s.core.ea x d) (rotResult op (s.readByte (s.core.ea x d)) (flagC s.core.f))).doneFlags 23
      { copyTo r (rotResult op (s.readByte (s.core.ea x d)) (flagC s.core.f)) s.core with
        f := rotFlags op (s.readByte (s.core.ea x d)) (flagC s.core.f), memptr := s.core.ea x d } := by
  rw [rotIdxStep, State.core_writeByte]

/-- A CB rotate or shift of the byte at `a`, copied to the register `r`, if any, with MEMPTR as `mp` says. -/
theorem runs_rotMemory {i : Instr} {n : Nat} (op : RotOp) (r : Option Reg8) (a mp : State → Word)
    (he : ∀ s, exec i s = (s.writeByte (a s) (rotResult op (s.readByte (a s)) (flagC s.core.f))).doneFlags n
      { copyTo r (rotResult op (s.readByte (a s)) (flagC s.core.f)) s.core with
        f := rotFlags op (s.readByte (a s)) (flagC s.core.f), memptr := mp s }) :
    Runs i n true fun s t => ∃ v, Stores s t (a s) v ∧
      t.core = { copyTo r v (s.core.stepped t.core) with f := t.core.f, memptr := mp s } ∧
      CbRotRule op (s.readByte (a s)) s.core.f v t.core.f := by
  refine runs_storeFlagWrite a (fun s => rotResult op (s.readByte (a s)) (flagC s.core.f))
    (fun s c => { copyTo r (rotResult op (s.readByte (a s)) (flagC s.core.f)) c with
      f := rotFlags op (s.readByte (a s)) (flagC s.core.f), memptr := mp s })
    (fun _ => (RegisterWrite.memptr _).comp ((RegisterWrite.f _).comp (.copyTo r _))) he fun s t hstores hcore => ?_
  have hf : t.core.f = rotFlags op (s.readByte (a s)) (flagC s.core.f) := congrArg Module.f hcore
  rw [hf]
  exact ⟨_, hstores, hcore, cbRotRule_rot op _ _⟩

theorem runs_rotMHl (op : RotOp) : Runs (.rotMHl op) 15 true fun s t =>
    t.core = { s.core.stepped t.core with f := t.core.f } ∧
    ∃ v, Stores s t s.core.hl v ∧ CbRotRule op (s.readByte s.core.hl) s.core.f v t.core.f := by
  intro s
  obtain ⟨t, ht, hend, v, hstores, hcore, hrule⟩ :=
    runs_rotMemory (i := .rotMHl op) (n := 15) op none (fun s => s.core.hl) (fun s => s.core.memptr)
      (execRotMHl_eq op) s
  exact ⟨t, ht, hend, hcore, v, hstores, hrule⟩

theorem rotatesIndexed_of_exec {i : Instr} (x : IdxReg) (op : RotOp) (r : Option Reg8) (d : Byte) {bytes : List Byte}
    (henc : Encoded i bytes 2) (he : ∀ s, exec i s = rotIdxStep x op r d s) :
    RotatesIndexed i bytes op r fun s => s.core.ea x d := by
  refine ⟨henc, ?_⟩
  cases r <;> exact runs_rotMemory op _ (fun s => s.core.ea x d) (fun s => s.core.ea x d) fun s =>
    (he s).trans (rotIdxStep_eq x op _ d s)

/-! ### RLD and RRD (R325, R326) -/

theorem toNat_highDigit (v : Byte) : (v &&& 0xF0).toNat = v.toNat / 16 * 16 := by decide +revert

theorem toNat_lowDigit (v : Byte) : (v &&& 0x0F).toNat = v.toNat % 16 := by decide +revert

theorem toNat_digitDown (v : Byte) : (v >>> 4).toNat = v.toNat / 16 := by decide +revert

theorem toNat_digitUp (v : Byte) : (v <<< 4).toNat = v.toNat % 16 * 16 := by decide +revert

/-- A high digit and a low digit make a byte. -/
theorem toNat_or_digits {h l : Byte} {k m : Nat} (hh : h.toNat = k * 16) (hl : l.toNat = m) (hm : m < 16) :
    (h ||| l).toNat = k * 16 + m := by
  rw [BitVec.toNat_or, hh, hl, Nat.mul_comm]
  exact (Nat.two_pow_add_eq_or_of_lt (i := 4) hm k).symm

theorem rotatesDigits_of_exec {i : Instr} {bytes : List Byte} {newA newM : Nat → Nat → Nat} (a' m' : Byte → Byte → Byte)
    (ha' : ∀ a m, (a' a m).toNat = newA a.toNat m.toNat) (hm' : ∀ a m, (m' a m).toNat = newM a.toNat m.toNat)
    (henc : Encoded i bytes 2)
    (he : ∀ s, exec i s = digitStep (a' s.core.a (s.readByte s.core.hl)) (m' s.core.a (s.readByte s.core.hl)) s) :
    RotatesDigits i bytes newA newM := by
  simp only [digitStep, State.core_writeByte] at he
  refine ⟨henc, runs_storeFlagWrite (fun s => s.core.hl) (fun s => m' s.core.a (s.readByte s.core.hl))
    (fun s c => { c with
      a := a' s.core.a (s.readByte s.core.hl)
      f := inFlags (a' s.core.a (s.readByte s.core.hl)) s.core.f
      memptr := s.core.hl + 1 })
    (fun _ => (RegisterWrite.memptr _).comp ((RegisterWrite.f _).comp (.setReg8 .a _))) he fun s t hstores hcore => ?_⟩
  have ha : t.core.a = a' s.core.a (s.readByte s.core.hl) := congrArg Module.a hcore
  have hf : t.core.f = inFlags (a' s.core.a (s.readByte s.core.hl)) s.core.f := congrArg Module.f hcore
  obtain ⟨hSZXY, hH, hP, hN⟩ := rotFlags_inFlags (a' s.core.a (s.readByte s.core.hl)) s.core.f
  rw [ha, hf]
  exact ⟨hcore, ha' _ _, ⟨_, hstores, hm' _ _⟩, hSZXY, hH, hP, hN, flagC_packFlags ..⟩

theorem rotatesDigits_rld :
    RotatesDigits .rld [0xED, 0x6F] (fun a m => a / 16 * 16 + m / 16) fun a m => m % 16 * 16 + a % 16 :=
  rotatesDigits_of_exec (fun a m => (a &&& 0xF0) ||| (m >>> 4)) (fun a m => (m <<< 4) ||| (a &&& 0x0F))
    (fun a m => toNat_or_digits (toNat_highDigit a) (toNat_digitDown m) (Nat.div_lt_of_lt_mul m.isLt))
    (fun a m => toNat_or_digits (toNat_digitUp m) (toNat_lowDigit a) (Nat.mod_lt _ (by decide)))
    (encoded_of_whole ⟨rfl, rfl, rfl⟩ rfl rfl) fun _ => rfl

theorem rotatesDigits_rrd :
    RotatesDigits .rrd [0xED, 0x67] (fun a m => a / 16 * 16 + m % 16) fun a m => a % 16 * 16 + m / 16 := by
  have hup (a : Byte) : ((a &&& 0x0F) <<< 4).toNat = a.toNat % 16 * 16 := by
    rw [toNat_digitUp, toNat_lowDigit, Nat.mod_mod]
  exact rotatesDigits_of_exec (fun a m => (a &&& 0xF0) ||| (m &&& 0x0F)) (fun a m => ((a &&& 0x0F) <<< 4) ||| (m >>> 4))
    (fun a m => toNat_or_digits (toNat_highDigit a) (toNat_lowDigit m) (Nat.mod_lt _ (by decide)))
    (fun a m => toNat_or_digits (hup a) (toNat_digitDown m) (Nat.div_lt_of_lt_mul m.isLt))
    (encoded_of_whole ⟨rfl, rfl, rfl⟩ rfl rfl) fun _ => rfl

/-- Settles O53: every form rotates or shifts its operand by the table of R321, RLD and RRD move the digits of A and (HL). -/
theorem rotatesAndShifts : Obligations.RotatesAndShifts := by
  refine ⟨
    rotatesA_of_exec .rlc ?rlca fun _ => rfl, rotatesA_of_exec .rrc ?rrca fun _ => rfl,
    rotatesA_of_exec .rl ?rla fun _ => rfl, rotatesA_of_exec .rr ?rra fun _ => rfl,
    rotatesR_rotReg .rlc, rotatesR_rotReg .rrc, rotatesR_rotReg .rl, rotatesR_rotReg .rr,
    rotatesR_rotReg .sla, rotatesR_rotReg .sra, rotatesR_rotReg .sll, rotatesR_rotReg .srl,
    fun op => ⟨?mHl, runs_rotMHl op⟩,
    fun op d => rotatesIndexed_of_exec .ix op none d ?mIx fun _ => rfl,
    fun op r d => rotatesIndexed_of_exec .ix op (some r) d ?mIxR fun _ => rfl,
    fun op d => rotatesIndexed_of_exec .iy op none d ?mIy fun _ => rfl,
    fun op r d => rotatesIndexed_of_exec .iy op (some r) d ?mIyR fun _ => rfl,
    rotatesDigits_rld, rotatesDigits_rrd⟩
  case rlca | rrca | rla | rra => exact encoded_of_whole ⟨rfl, rfl, rfl⟩ rfl rfl
  case mHl => exact encoded_of_whole ⟨rfl, rfl, congrArg (fun b => [0xCB, b]) (opXYZ_zero op.code 6)⟩ rfl rfl
  case mIx => exact encoded_of_whole ⟨rfl, rfl, congrArg (idxCbForm .ix d) (opXYZ_zero op.code 6)⟩ rfl rfl
  case mIxR => exact encoded_of_whole ⟨rfl, rfl, congrArg (idxCbForm .ix d) (opXYZ_zero op.code r.code)⟩ rfl rfl
  case mIy => exact encoded_of_whole ⟨rfl, rfl, congrArg (idxCbForm .iy d) (opXYZ_zero op.code 6)⟩ rfl rfl
  case mIyR => exact encoded_of_whole ⟨rfl, rfl, congrArg (idxCbForm .iy d) (opXYZ_zero op.code r.code)⟩ rfl rfl

end Sys2Proof.Machine
end

section
/-!
The bit set, reset and test group, the statements of 47_bit.md (O54, O55).
-/

namespace Sys2Proof.Machine

/-! ### Opcodes after CB (R125, R128) -/

section
variable {i : Instr} (x : BitVec 2) (y z : BitVec 3)

/-- The bytes of an instruction of the CB space, by the fields of its opcode. -/
theorem encoded_cb (hwf : i.wellFormed = true) (hlone : i.isLonePrefix = false) (hign : i.isIgnoredPrefix = false)
    (henc : encode i = [0xCB, opXYZ x y z]) : Encoded i [0xCB, op8 (64 * x.toNat + 8 * y.toNat + z.toNat)] 2 := by
  rw [← opXYZ_eq_op8]
  exact encoded_of_whole ⟨hwf, hlone, henc⟩ hign (m1Count_of_isPrefix henc rfl)

/-- The bytes of an instruction of the DDCB or FDCB space, by the fields of its opcode. -/
theorem encoded_idxCb (k : IdxReg) (d : Byte) (hwf : i.wellFormed = true) (hlone : i.isLonePrefix = false)
    (hign : i.isIgnoredPrefix = false) (henc : encode i = idxCbForm k d (opXYZ x y z)) :
    Encoded i (idxCbForm k d (op8 (64 * x.toNat + 8 * y.toNat + z.toNat))) 2 := by
  rw [← opXYZ_eq_op8]
  exact encoded_of_whole ⟨hwf, hlone, henc⟩ hign (m1Count_of_isPrefix henc (isPrefix_prefixByte k))

end

/-! ### BIT (R350 to R352) -/

theorem bitRule_bitFlags (b : BitVec 3) (v xy f : Byte) : BitRule b v xy f (bitFlags b v xy f) := by
  have hseven : (b == 7) = decide (b.toNat = 7) := by decide +revert
  exact ⟨flagZ_packFlags .., flagP_packFlags .., by rw [bitFlags, flagS_packFlags, hseven], flagH_packFlags ..,
    flagN_packFlags .., ⟨flagY_packFlags .., flagX_packFlags ..⟩, flagC_packFlags ..⟩

/-- BIT of a register or of the byte at HL, which writes F only (R350, R351). -/
theorem runs_bitTest {i : Instr} {n : Nat} (b : BitVec 3) (v xy : State → Byte)
    (he : ∀ s, exec i s = s.doneFlags n { s.core with f := bitFlags b (v s) (xy s) s.core.f }) :
    Runs i n true fun s t => Quiet s t ∧ t.core = { s.core.stepped t.core with f := t.core.f } ∧
      BitRule b (v s) (xy s) s.core.f t.core.f :=
  runs_writeF (fun s => bitFlags b (v s) (xy s) s.core.f) he fun _ _ hf => hf ▸ bitRule_bitFlags b _ _ _

/-- BIT b,(xy+d): Y and X come from the high byte of the address, which MEMPTR takes (R352). -/
theorem runs_bitIdxStep {i : Instr} (x : IdxReg) (b : BitVec 3) (d : Byte) (he : ∀ s, exec i s = bitIdxStep x b d s) :
    Runs i 20 true fun s t => Quiet s t ∧
      t.core = { s.core.stepped t.core with f := t.core.f, memptr := s.core.ea x d } ∧
      BitRule b (s.readByte (s.core.ea x d)) (hiByte (s.core.ea x d)) s.core.f t.core.f := by
  refine runs_flagWrite (fun s c => { c with
      f := bitFlags b (s.readByte (s.core.ea x d)) (hiByte (s.core.ea x d)) s.core.f, memptr := s.core.ea x d })
    (fun _ => (RegisterWrite.memptr _).comp (.f _)) he fun s t hquiet hcore => ?_
  have hf : t.core.f = bitFlags b (s.readByte (s.core.ea x d)) (hiByte (s.core.ea x d)) s.core.f :=
    congrArg Module.f hcore
  rw [hf]
  exact ⟨hquiet, hcore, bitRule_bitFlags b _ _ _⟩

/-- Settles O54: every form writes F by the one rule, the indexed forms MEMPTR too. -/
theorem bitTests : Obligations.BitTests := by
  refine ⟨
    fun b r => ⟨encoded_cb 1 b r.code rfl rfl rfl rfl,
      runs_bitTest b (fun s => s.core.reg8 r) (fun s => s.core.reg8 r) fun _ => rfl⟩,
    fun b => ⟨?bitMHl, runs_bitTest b (fun s => s.readByte s.core.hl) (fun s => hiByte s.core.memptr) fun _ => rfl⟩,
    fun b z d => ⟨encoded_idxCb 1 b z .ix d rfl rfl rfl rfl, runs_bitIdxStep .ix b d fun _ => rfl⟩,
    fun b z d => ⟨encoded_idxCb 1 b z .iy d rfl rfl rfl rfl, runs_bitIdxStep .iy b d fun _ => rfl⟩⟩
  case bitMHl =>
    have hop : 0x46 + 8 * b.toNat = 64 + 8 * b.toNat + 6 := by omega
    rw [hop]
    exact encoded_cb 1 b 6 rfl rfl rfl rfl

/-! ### SET and RES (R353 to R358) -/

section
variable {w n : Nat} (v : BitVec w) (b : Nat) (hn : n < w)
include hn

theorem getLsbD_one_shiftLeft_of_lt : (1#w <<< b).getLsbD n = decide (n = b) := by
  rw [← BitVec.twoPow_eq, BitVec.getLsbD_twoPow, ← Bool.decide_and, decide_eq_decide]
  omega

/-- One bit set: it becomes 1 and the others stay. -/
theorem getLsbD_or_one_shiftLeft : (v ||| 1#w <<< b).getLsbD n = if n = b then true else v.getLsbD n := by
  rw [BitVec.getLsbD_or, getLsbD_one_shiftLeft_of_lt b hn]
  split <;> simp [*]

/-- One bit reset: it becomes 0 and the others stay. -/
theorem getLsbD_and_not_one_shiftLeft : (v &&& ~~~(1#w <<< b)).getLsbD n = if n = b then false else v.getLsbD n := by
  rw [BitVec.getLsbD_and, BitVec.getLsbD_not, getLsbD_one_shiftLeft_of_lt b hn]
  split <;> simp [*]

end

theorem bitPut_setBit (b : BitVec 3) (v : Byte) : BitPut b true v (setBit b v) :=
  fun k => getLsbD_or_one_shiftLeft v b.toNat k.isLt

theorem bitPut_resetBit (b : BitVec 3) (v : Byte) : BitPut b false v (resetBit b v) :=
  fun k => getLsbD_and_not_one_shiftLeft v b.toNat k.isLt

section
variable {i : Instr} {n : Nat} {b : BitVec 3} {on : Bool} {g : Byte → Byte}

/-- SET and RES of a register (R353, R356). -/
theorem runs_bitPutR (r : Reg8) (hg : ∀ v, BitPut b on v (g v))
    (he : ∀ s, exec i s = s.done n (s.core.setReg8 r (g (s.core.reg8 r)))) :
    Runs i n false fun s t => Quiet s t ∧
      ∃ v, t.core = (s.core.stepped t.core).setReg8 r v ∧ BitPut b on (s.core.reg8 r) v := by
  intro s
  obtain ⟨t, ht, hends, hquiet, hcore⟩ :=
    runs_registerWrite (fun s c => c.setReg8 r (g (s.core.reg8 r))) (fun _ => .setReg8 r _) he s
  exact ⟨t, ht, hends, hquiet, _, hcore, hg _⟩

/-- SET and RES of a byte in memory, MEMPTR as `mp` says (R354, R355, R357, R358). -/
theorem runs_bitPutMemory (a mp : State → Word) (hg : ∀ v, BitPut b on v (g v))
    (he : ∀ s, exec i s = (s.writeByte (a s) (g (s.readByte (a s)))).done n
      { (s.writeByte (a s) (g (s.readByte (a s)))).core with memptr := mp s }) :
    Runs i n false fun s t => t.core = { s.core.stepped t.core with memptr := mp s } ∧
      ∃ v, Stores s t (a s) v ∧ BitPut b on (s.readByte (a s)) v := by
  intro s
  obtain ⟨t, ht, hends, hstores, hcore⟩ :=
    runs_store a (fun s => g (s.readByte (a s))) (fun s c => { c with memptr := mp s }) (fun _ => .memptr _) he s
  exact ⟨t, ht, hends, hcore, _, hstores, hg _⟩

/-- SET and RES of the byte at HL (R354, R357). -/
theorem runs_bitWriteMHl (hg : ∀ v, BitPut b on v (g v)) (he : ∀ s, exec i s = bitWriteMHl g s) :
    Runs i 15 false fun s t => t.core = s.core.stepped t.core ∧
      ∃ v, Stores s t s.core.hl v ∧ BitPut b on (s.readByte s.core.hl) v :=
  runs_bitPutMemory (fun s => s.core.hl) (fun s => s.core.memptr) hg fun s => by
    rw [he, bitWriteMHl, State.core_writeByte]

/-- SET and RES of the byte at (xy+d) (R355, R358). -/
theorem runs_bitWriteIdx (x : IdxReg) (d : Byte) (hg : ∀ v, BitPut b on v (g v))
    (he : ∀ s, exec i s = bitWriteIdx x g none d s) :
    Runs i 23 false fun s t => t.core = { s.core.stepped t.core with memptr := s.core.ea x d } ∧
      ∃ v, Stores s t (s.core.ea x d) v ∧ BitPut b on (s.readByte (s.core.ea x d)) v :=
  runs_bitPutMemory (fun s => s.core.ea x d) (fun s => s.core.ea x d) hg he

/-- The copy forms, which write the byte to a register too (R355, R358). -/
theorem runs_bitWriteIdxR (x : IdxReg) (r : Reg8) (d : Byte) (hg : ∀ v, BitPut b on v (g v))
    (he : ∀ s, exec i s = bitWriteIdx x g (some r) d s) :
    Runs i 23 false fun s t => ∃ v, Stores s t (s.core.ea x d) v ∧
      t.core = { (s.core.stepped t.core).setReg8 r v with memptr := s.core.ea x d } ∧
      BitPut b on (s.readByte (s.core.ea x d)) v := by
  intro s
  obtain ⟨t, ht, hends, hstores, hcore⟩ :=
    runs_store (fun s => s.core.ea x d) (fun s => g (s.readByte (s.core.ea x d)))
      (fun s c => { c.setReg8 r (g (s.readByte (s.core.ea x d))) with memptr := s.core.ea x d })
      (fun _ => (RegisterWrite.memptr _).comp (.setReg8 r _)) he s
  exact ⟨t, ht, hends, _, hstores, hcore, hg _⟩

end

/-- Settles O55: every form puts the bit of its operand, a register or a byte of memory. -/
theorem setAndRes : Obligations.SetAndRes :=
  ⟨⟨
    fun b r => ⟨encoded_cb 3 b r.code rfl rfl rfl rfl, runs_bitPutR r (bitPut_setBit b) fun _ => rfl⟩,
    fun b => ⟨encoded_cb 3 b 6 rfl rfl rfl rfl, runs_bitWriteMHl (bitPut_setBit b) fun _ => rfl⟩,
    fun b d => ⟨encoded_idxCb 3 b 6 .ix d rfl rfl rfl rfl, runs_bitWriteIdx .ix d (bitPut_setBit b) fun _ => rfl⟩,
    fun b d => ⟨encoded_idxCb 3 b 6 .iy d rfl rfl rfl rfl, runs_bitWriteIdx .iy d (bitPut_setBit b) fun _ => rfl⟩,
    fun b r d => ⟨encoded_idxCb 3 b r.code .ix d rfl rfl rfl rfl,
      runs_bitWriteIdxR .ix r d (bitPut_setBit b) fun _ => rfl⟩,
    fun b r d => ⟨encoded_idxCb 3 b r.code .iy d rfl rfl rfl rfl,
      runs_bitWriteIdxR .iy r d (bitPut_setBit b) fun _ => rfl⟩⟩,
    fun b r => ⟨encoded_cb 2 b r.code rfl rfl rfl rfl, runs_bitPutR r (bitPut_resetBit b) fun _ => rfl⟩,
    fun b => ⟨encoded_cb 2 b 6 rfl rfl rfl rfl, runs_bitWriteMHl (bitPut_resetBit b) fun _ => rfl⟩,
    fun b d => ⟨encoded_idxCb 2 b 6 .ix d rfl rfl rfl rfl, runs_bitWriteIdx .ix d (bitPut_resetBit b) fun _ => rfl⟩,
    fun b d => ⟨encoded_idxCb 2 b 6 .iy d rfl rfl rfl rfl, runs_bitWriteIdx .iy d (bitPut_resetBit b) fun _ => rfl⟩,
    fun b r d => ⟨encoded_idxCb 2 b r.code .ix d rfl rfl rfl rfl,
      runs_bitWriteIdxR .ix r d (bitPut_resetBit b) fun _ => rfl⟩,
    fun b r d => ⟨encoded_idxCb 2 b r.code .iy d rfl rfl rfl rfl,
      runs_bitWriteIdxR .iy r d (bitPut_resetBit b) fun _ => rfl⟩⟩

end Sys2Proof.Machine
end

section
/-!
The call, return and restart group, the statement of 48_jump_call_return.md about it (O57).
-/

namespace Sys2Proof.Machine

theorem condHolds_iff (cc : Cond) (f : Byte) : condHolds cc f ↔ holds cc f = true := by
  cases cc <;> simp [condHolds, holds, flagS, flagZ, flagP, flagC]

/-- The module after a return in the state `s`: PC and MEMPTR from the stack (R17, R380). -/
def returned (s : State) (c : Module) : Module :=
  { c with sp := s.core.sp + 2, pc := wordAt s s.core.sp, memptr := wordAt s s.core.sp }

namespace RegisterWrite

theorem returned (s : State) : RegisterWrite (returned s) := ⟨fun _ => rfl, fun _ => rfl, fun _ _ => rfl⟩

theorem iff1 (v : Bool) : RegisterWrite fun c => { c with iff1 := v } :=
  ⟨fun _ => rfl, fun _ => rfl, fun _ _ => rfl⟩

theorem retiSeen (v : Bool) : RegisterWrite fun c => { c with retiSeen := v } :=
  ⟨fun _ => rfl, fun _ => rfl, fun _ _ => rfl⟩

end RegisterWrite

section
variable {i : Instr} {n : Nat} {s : State}

/-- A step from `s` that writes registers and nothing else. -/
theorem after_registerWrite (g : Module → Module) (hg : RegisterWrite g) (he : exec i s = s.done n (g s.core)) :
    After i s n fun t => Quiet s t ∧ t.core = g (s.core.stepped t.core) := by
  refine ⟨_, he, ?_, quiet_setCore s _ (hg.port7FFD _) (hg.trdos _), ?_⟩ <;> rw [State.core_setCore]
  · exact endsStep_done (hg.t _) n
  · exact hg.ended s.core n 0

/-- A call, taken (R378, R382). -/
theorem after_callStep (target : Word) (he : exec i s = callStep target n s) :
    After i s n fun t => Calls s t target := by
  refine ⟨_, he, ?ends, storesTwo_push s s.core.pc _ ?latch ?overlay, ?core⟩ <;>
    simp only [State.core_setCore, State.core_push]
  case ends => exact endsStep_done rfl n
  case latch | overlay | core => rfl

/-- A return, taken (R380, R381). -/
theorem after_returnStep (he : exec i s = returnStep n s) : After i s n (Returns s) := by
  obtain ⟨hvalue, hcore⟩ := popValue_core_popped s
  exact after_registerWrite (returned s) (.returned s) (by rw [he, returnStep, hvalue, hcore]; rfl)

end

/-- The return from a handler is a return with IFF1 <- IFF2 (R384, R385). -/
theorem leaveHandler_eq (s : State) :
    s.leaveHandler = s.setCore { returned s s.core with iff1 := s.core.iff2 } := by
  rw [State.leaveHandler_spec, (popValue_core_popped s).1]; rfl

theorem exec_retn (y : BitVec 3) (s : State) :
    exec (.retn y) s = s.done 14 { returned s s.core with iff1 := s.core.iff2 } := by
  change execRetn y s = _
  rw [execRetn, leaveHandler_eq, State.core_setCore, State.done, State.setCore_setCore, State.done]

theorem exec_reti (s : State) :
    exec .reti s = s.done 14 { returned s s.core with iff1 := s.core.iff2, retiSeen := true } := by
  change execReti s = _
  rw [execReti, leaveHandler_eq, State.core_setCore, State.done, State.setCore_setCore, State.done]

theorem rstAddress_eq (y : BitVec 3) : rstAddress y = BitVec.ofNat 16 (y.toNat * 8) := by decide +revert

/-- Settles O57: a taken form is a call or a return, one not taken writes MEMPTR at most. -/
theorem callsAndReturns : Obligations.CallsAndReturns := by
  refine ⟨
    fun nn => ⟨?callNn, fun s => after_callStep nn rfl⟩,
    fun cc nn => ⟨?callCcNn, fun s => ⟨fun h => after_callStep nn (if_pos ((condHolds_iff cc _).mp h)), fun h =>
      after_registerWrite _ (.memptr nn) (if_neg fun h' => h ((condHolds_iff cc _).mpr h'))⟩⟩,
    ⟨?ret, fun s => after_returnStep rfl⟩,
    fun cc => ⟨?retCc, fun s => ⟨fun h => after_returnStep (if_pos ((condHolds_iff cc _).mp h)), fun h =>
      after_registerWrite _ .unchanged (if_neg fun h' => h ((condHolds_iff cc _).mpr h'))⟩⟩,
    fun y => ⟨?rst, fun s => after_callStep _ (by rw [← rstAddress_eq]; rfl)⟩,
    fun y hy => ⟨?retn, fun s => after_registerWrite (fun c => { returned s c with iff1 := s.core.iff2 })
      ((RegisterWrite.iff1 _).comp (.returned s)) (exec_retn y s)⟩,
    ⟨?reti, fun s => after_registerWrite (fun c => { returned s c with iff1 := s.core.iff2, retiSeen := true })
      ((RegisterWrite.retiSeen true).comp ((RegisterWrite.iff1 _).comp (.returned s))) (exec_reti s)⟩⟩
  case callNn => rw [← wordBytes_eq_lowHigh]; exact encoded_of_whole ⟨rfl, rfl, rfl⟩ rfl rfl
  case callCcNn => rw [← wordBytes_eq_lowHigh]; cases cc <;> exact encoded_of_whole ⟨rfl, rfl, rfl⟩ rfl rfl
  case ret | reti => exact encoded_of_whole ⟨rfl, rfl, rfl⟩ rfl rfl
  case retCc => cases cc <;> exact encoded_of_whole ⟨rfl, rfl, rfl⟩ rfl rfl
  case rst => cases y using field3_cases <;> exact encoded_of_whole ⟨rfl, rfl, rfl⟩ rfl rfl
  case retn =>
    have hwf : (Instr.retn y).wellFormed = true := bne_iff_ne.mpr hy
    cases y using field3_cases <;> exact encoded_of_whole ⟨hwf, rfl, rfl⟩ rfl rfl

end Sys2Proof.Machine
end

section
/-!
The input and output group, the statements of 49_io.md (O58 to O60).
-/

namespace Sys2Proof.Machine

/-! ### Port reads (R400 to R402) -/

/-- What a port read leaves, whatever else the step writes to the module. -/
theorem readsPort_setCore (s : State) (c : Module) (hl : c.port7FFD = s.core.port7FFD) (ho : c.trdos = s.core.trdos) :
    ReadsPort s (s.portReadDone.setCore c) := by
  refine ⟨⟨s.draws + s.cfg.externals.length, ?_⟩, fun b => ?_⟩
  · rw [State.core_setCore, State.portReadDone_spec]
  · exact (State.readByte_setCore s.portReadDone c hl ho b).trans (State.readByte_congr rfl rfl rfl rfl rfl rfl b)

theorem inRule_inFlags (v f : Byte) : InRule v f (inFlags v f) := by
  obtain ⟨hSZXY, hH, hP, hN⟩ := rotFlags_inFlags v f
  exact ⟨hSZXY, hH, hP, hN, flagC_packFlags ..⟩

/-- A step that reads a port and writes registers, F among them. -/
theorem runs_portReadFlags {i : Instr} {n : Nat} {post : State → State → Prop} (g : State → Module → Module)
    (hg : ∀ s, RegisterWrite (g s)) (he : ∀ s, exec i s = s.portReadDone.doneFlags n (g s s.core))
    (hpost : ∀ s t, ReadsPort s t → t.core = g s (s.core.stepped t.core) → post s t) : Runs i n true post := by
  refine runs_doneFlags State.portReadDone (fun s => g s s.core) he (fun s => (hg s).t _) fun s =>
    hpost s _ (readsPort_setCore s _ ((hg s).port7FFD _) ((hg s).trdos _)) ?_
  rw [State.core_setCore]
  exact (hg s).ended s.core n _

/-- IN r,(C) and IN (C): F by the byte read, MEMPTR after BC, and what `write` makes of the byte (R401, R402). -/
theorem runs_inFromBc {i : Instr} (write : Byte → Module → Module) (hw : ∀ v, RegisterWrite (write v))
    (he : ∀ s, exec i s = s.portReadDone.doneFlags 12 { write (s.portValue s.core.bc) s.core with
      f := inFlags (s.portValue s.core.bc) s.core.f, memptr := s.core.bc + 1 }) :
    Runs i 12 true fun s t => ReadsPort s t ∧
      t.core = { write (s.portValue s.core.bc) (s.core.stepped t.core) with f := t.core.f, memptr := s.core.bc + 1 } ∧
      InRule (s.portValue s.core.bc) s.core.f t.core.f := by
  refine runs_portReadFlags (fun s c => { write (s.portValue s.core.bc) c with
      f := inFlags (s.portValue s.core.bc) s.core.f, memptr := s.core.bc + 1 })
    (fun _ => (RegisterWrite.memptr _).comp ((RegisterWrite.f _).comp (hw _))) he fun s t hreads hcore => ?_
  have hf : t.core.f = inFlags (s.portValue s.core.bc) s.core.f := congrArg Module.f hcore
  rw [hf]
  exact ⟨hreads, hcore, inRule_inFlags _ _⟩

/-- Settles O58: each form reads one port; IN A,(n) writes no flag. -/
theorem inputs : Obligations.Inputs := by
  refine ⟨
    fun n => ⟨?inAN, runs_done _ _ (fun _ => rfl) (fun _ => rfl) fun s => ⟨readsPort_setCore s _ rfl rfl, ?inANCore⟩⟩,
    fun r => ⟨?inRC, runs_inFromBc (fun v c => c.setReg8 r v) (.setReg8 r) fun _ => rfl⟩,
    ⟨?inC, runs_inFromBc (fun _ c => c) (fun _ => .unchanged) fun _ => rfl⟩⟩
  case inANCore => rw [State.core_setCore]; rfl
  case inRC => cases r <;> exact encoded_of_whole ⟨rfl, rfl, rfl⟩ rfl rfl
  case inAN | inC => exact encoded_of_whole ⟨rfl, rfl, rfl⟩ rfl rfl

/-! ### Port writes (R408 to R410) -/

theorem portWrite_heap (s : State) (port : Word) (v : Byte) (tw : Nat) : (s.portWrite port v tw).heap = s.heap :=
  (congrArg State.heap (portWrite_fields s port v tw) :)

theorem portWrite_cfg (s : State) (port : Word) (v : Byte) (tw : Nat) : (s.portWrite port v tw).cfg = s.cfg :=
  (congrArg State.cfg (portWrite_fields s port v tw) :)

/-- A step that writes `v` to a port and MEMPTR. -/
theorem runs_portWrite {i : Instr} {n : Nat} (port mp : State → Word) (v : State → Byte)
    (he : ∀ s, exec i s = (s.portWrite (port s) (v s) (s.core.t + n)).done n
      { (s.portWrite (port s) (v s) (s.core.t + n)).core with memptr := mp s }) :
    Runs i n false fun s t => WritesPort s t (port s) (v s) n ∧
      t.core = { s.core.stepped t.core with port7FFD := t.core.port7FFD, memptr := mp s } := by
  refine runs_done _ _ he (fun s => t_portWrite ..) fun s => ⟨⟨?_, portWrite_heap .., ?_⟩, ?_⟩ <;> rw [State.core_setCore]
  · rfl
  · rw [core_portWrite_latch]; rfl

/-- Settles O59: each form writes one byte to one port as its step ends. -/
theorem outputs : Obligations.Outputs := by
  refine ⟨
    fun n => ⟨?outNA, runs_portWrite (fun s => pair s.core.a n) (fun s => pair s.core.a (n + 1)) (fun s => s.core.a)
      fun _ => rfl⟩,
    fun r => ⟨?outCR, runs_portWrite (fun s => s.core.bc) (fun s => s.core.bc + 1) (fun s => s.core.reg8 r)
      fun _ => rfl⟩,
    ⟨?outC0, runs_portWrite (fun s => s.core.bc) (fun s => s.core.bc + 1) (fun s => s.cfg.outCZero) fun _ => rfl⟩⟩
  case outCR => cases r <;> exact encoded_of_whole ⟨rfl, rfl, rfl⟩ rfl rfl
  case outNA | outC0 => exact encoded_of_whole ⟨rfl, rfl, rfl⟩ rfl rfl

/-! ### The end of a block iteration (R403 to R405) -/

theorem blockIoRule_blockIoFlags (v b k2 : Byte) : BlockIoRule v b (v.toNat + k2.toNat) (blockIoFlags v b k2) := by
  have hlow (k : Nat) : BitVec.ofNat 8 k &&& 7 = BitVec.ofNat 8 (k % 8) := by
    apply BitVec.eq_of_toNat_eq
    rw [BitVec.toNat_and, BitVec.toNat_ofNat, BitVec.toNat_ofNat]
    exact (Nat.and_two_pow_sub_one_eq_mod _ 3).trans (by omega)
  refine ⟨by simp [FlagsSZXY, blockIoFlags, beq_bits], flagH_packFlags .., flagC_packFlags ..,
    (flagP_packFlags ..).trans ?parity, flagN_packFlags ..⟩
  case parity => rw [hlow, parity_eq]

/-- S, Z, N and C are those of `f`. -/
def SameSZNC (f f' : Byte) : Prop := flagS f' = flagS f ∧ flagZ f' = flagZ f ∧ flagN f' = flagN f ∧ flagC f' = flagC f

/-- The state `s` at the end of a block iteration of `time` T-states, `n` free values taken so far. -/
def ioEnded (s : State) (n : Nat) (pc : Word) (f : Byte) (time : Nat) : State :=
  ({ s with draws := n }).setCore (({ s.core with pc := pc, f := f }.spend time).endStep f)

theorem ioEnded_setCore (s : State) (c : Module) (n : Nat) (pc : Word) (f : Byte) (time : Nat) :
    ioEnded (s.setCore c) n pc f time =
      ({ s with draws := n }).setCore (({ c with pc := pc, f := f }.spend time).endStep f) := by
  rw [ioEnded, State.core_setCore]
  exact State.setCore_setCore { s with draws := n } c _

/-- An iteration ends with its flags, or, where it repeats under `PC_HIGH`, with free Y, H, X and P/V. -/
theorem blockIoEnd_next (repeats : Bool) (fl : Byte) (s : State) : ∃ n f,
    blockIoEnd repeats fl s =
      .next (ioEnded s n (if repeats then s.core.pc - 2 else s.core.pc) f (blockTime repeats)) ∧
    SameSZNC fl f ∧ (repeats = false ∨ s.cfg.blockRepeatXy = .classic → f = fl) := by
  cases repeats with
  | false => exact ⟨s.draws, fl, rfl, ⟨rfl, rfl, rfl, rfl⟩, fun _ => rfl⟩
  | true =>
    cases hk : s.cfg.blockRepeatXy with
    | classic => exact ⟨s.draws, fl, by rw [blockIoEnd, hk]; rfl, ⟨rfl, rfl, rfl, rfl⟩, fun _ => rfl⟩
    | pcHigh =>
      exact ⟨s.draws + 1, withFreeYHXP fl s.freeByte, by rw [blockIoEnd, hk]; rfl, by simp [SameSZNC, withFreeYHXP],
        fun h => h.elim nofun nofun⟩

theorem blockIoRepeatRule_of_sameSZNC {xy : BlockRepeatXy} {v b fl f : Byte} {k : Nat} (hrule : BlockIoRule v b k fl)
    (hsame : SameSZNC fl f) (hclassic : xy = .classic → f = fl) : BlockIoRepeatRule xy v b k f := by
  cases xy with
  | classic => exact hclassic rfl ▸ hrule
  | pcHigh =>
    obtain ⟨⟨hS, hZ, -⟩, -, hC, -, hN⟩ := hrule
    obtain ⟨hS', hZ', hN', hC'⟩ := hsame
    exact ⟨hS'.trans hS, hZ'.trans hZ, hN'.trans hN, hC'.trans hC⟩

theorem ioRepeats_eq (rep : Bool) (s : State) : (rep && s.core.b - 1 != 0) = ioRepeats rep s := by
  rw [ioRepeats, bne, bne, sub_beq_zero]

theorem ioTime_eq (rep : Bool) (s : State) : ioTime rep s = blockTime (ioRepeats rep s) := rfl

/-- A block iteration, whose flags `fl` are those of the byte `v`, on the state `s1` its transfer leaves. -/
theorem runsFor_blockIo {i : Instr} {rep : Bool} {post : State → State → Prop} (s1 : State → State)
    (v k2 : State → Byte)
    (he : ∀ s, exec i s = blockIoEnd (ioRepeats rep s) (blockIoFlags (v s) (s.core.b - 1) (k2 s)) (s1 s))
    (ht : ∀ s, (s1 s).core.t = s.core.t) (hpc : ∀ s, (s1 s).core.pc = s.core.pc)
    (hxy : ∀ s, (s1 s).cfg.blockRepeatXy = s.cfg.blockRepeatXy)
    (hpost : ∀ s n pc f time, BlockIoEnds rep (v s) ((v s).toNat + (k2 s).toNat) s (ioEnded (s1 s) n pc f time) →
      post s (ioEnded (s1 s) n pc f time)) :
    RunsFor i (ioTime rep) true post := by
  intro s
  obtain ⟨n, f, hend, hsame, hfl⟩ :=
    blockIoEnd_next (ioRepeats rep s) (blockIoFlags (v s) (s.core.b - 1) (k2 s)) (s1 s)
  have hrule := blockIoRule_blockIoFlags (v s) (s.core.b - 1) (k2 s)
  rw [hxy] at hfl
  refine ⟨_, (he s).trans hend, ?ends, hpost s n _ f _ ⟨fun hrep => ?again, fun hrep => ?last⟩⟩ <;>
    rw [ioEnded, State.core_setCore]
  case ends => exact endsStep_doneFlags (c := { (s1 s).core with pc := _, f := f }) (ht s) _
  case again =>
    exact ⟨(if_pos hrep).trans (by rw [hpc]), blockIoRepeatRule_of_sameSZNC hrule hsame fun hk => hfl (.inr hk)⟩
  case last =>
    exact ⟨(if_neg (Bool.eq_false_iff.mp hrep)).trans (hpc s), hfl (.inl hrep) ▸ hrule⟩

/-! ### INI, IND, INIR and INDR (R404 to R407) -/

/-- A module after the transfer of a block input: B counted down, HL and MEMPTR moved on (R404). -/
def blockInput (step : Word) (c : Module) : Module :=
  { c.setHl (c.hl + step) with b := c.b - 1, memptr := c.bc + step }

/-- The state after the transfer of a block input. -/
def blockInputState (step : Word) (s : State) : State :=
  ((s.writeByte s.core.hl (s.portValue s.core.bc)).drew s.cfg.externals.length).setCore (blockInput step s.core)

theorem State.writeByte_drew (s : State) (n : Nat) (a : Word) (v : Byte) :
    (s.drew n).writeByte a v = (s.writeByte a v).drew n := by
  have hb : (s.drew n).backing a = s.backing a := rfl
  unfold State.writeByte
  rw [hb]
  split <;> rfl

theorem inBlock_eq (step : Word) (cStep : Byte) (rep : Bool) (s : State) : inBlock step cStep rep s =
    blockIoEnd (ioRepeats rep s) (blockIoFlags (s.portValue s.core.bc) (s.core.b - 1) (s.core.c + cStep))
      (blockInputState step s) := by
  have hwrite := State.writeByte_setCore s.portReadDone
    { s.core with memptr := s.core.bc + step, b := s.core.b - 1 } rfl rfl
  have hcore : s.portReadDone.core = s.core := rfl
  simp only [inBlock, ioRepeats_eq, State.mapCore_eq, State.core_setCore, State.setCore_setCore, hcore,
    hwrite]
  rw [State.portReadDone, State.writeByte_drew]
  rfl

/-- What a byte stored and a port read leave, whatever else the step writes to the module. -/
theorem stores_readsPort (s : State) (a : Word) (v : Byte) (n : Nat) (c : Module) (hl : c.port7FFD = s.core.port7FFD)
    (ho : c.trdos = s.core.trdos) {t : State} (ht : t = ({ s.writeByte a v with draws := n }).setCore c) :
    t = ({ s with heap := t.heap, draws := n }).setCore t.core ∧
    (∀ b, t.readByte b = if s.isRam a && s.sameByte a b then v else s.readByte b) ∧ HeapKept s t [a] := by
  subst ht
  obtain ⟨-, hread, hheap⟩ := stores_writeByte s a v c hl ho
  refine ⟨?frame, fun b => (State.readByte_congr rfl rfl rfl rfl rfl rfl b).trans (hread b), hheap⟩
  case frame =>
    rw [State.core_setCore, State.setCore_heap]
    exact congrArg (fun u => ({ u with draws := n } : State).setCore c) (State.writeByte_eq s a v)

theorem inIteration_ioEnded {step : Word} {cStep : Byte} {rep : Bool} (s : State) (n : Nat) (pc : Word) (f : Byte)
    (time : Nat) (h : BlockIoEnds rep (s.portValue s.core.bc)
      ((s.portValue s.core.bc).toNat + (s.core.c + cStep).toNat) s (ioEnded (blockInputState step s) n pc f time)) :
    InIteration step cStep rep s (ioEnded (blockInputState step s) n pc f time) := by
  obtain ⟨hframe, hread, hheap⟩ := stores_readsPort s s.core.hl (s.portValue s.core.bc) n
    (({ blockInput step s.core with pc := pc, f := f }.spend time).endStep f) rfl rfl (ioEnded_setCore _ _ n pc f time)
  refine ⟨⟨n, hframe⟩, hread, hheap, ?hl, ?core, h⟩ <;> rw [blockInputState, ioEnded_setCore, State.core_setCore]
  case hl => exact pair_hiByte_loByte _
  case core => rfl

theorem runsFor_inBlock {i : Instr} (step : Word) (cStep : Byte) (rep : Bool) (he : ∀ s, exec i s = inBlock step cStep rep s) :
    RunsFor i (ioTime rep) true (InIteration step cStep rep) :=
  runsFor_blockIo (blockInputState step) (fun s => s.portValue s.core.bc) (fun s => s.core.c + cStep)
    (fun s => (he s).trans (inBlock_eq step cStep rep s)) (fun s => by rw [blockInputState, State.core_setCore]; rfl)
    (fun s => by rw [blockInputState, State.core_setCore]; rfl) (fun s => by simp [blockInputState])
    inIteration_ioEnded

/-! ### OUTI, OUTD, OTIR and OTDR (R411 to R414) -/

/-- A module after the transfer of a block output: B counted down, HL and MEMPTR moved on (R411). -/
def blockOutput (step : Word) (c : Module) : Module :=
  { c.setHl (c.hl + step) with b := c.b - 1, memptr := pair (c.b - 1) c.c + step }

/-- The port write of a block output, at the time its iteration ends. -/
def blockOutputWrite (rep : Bool) (s : State) : State :=
  s.portWrite (pair (s.core.b - 1) s.core.c) (s.readByte s.core.hl) (s.core.t + ioTime rep s)

/-- The state after the transfer of a block output. -/
def blockOutputState (step : Word) (rep : Bool) (s : State) : State :=
  (blockOutputWrite rep s).setCore
    { blockOutput step s.core with port7FFD := (blockOutputWrite rep s).core.port7FFD }

theorem State.bankSelect_setCore (s : State) (c : Module) (hl : c.port7FFD = s.core.port7FFD) (port : Word) (v : Byte) :
    (s.setCore c).bankSelect port v =
      (s.bankSelect port v).setCore { c with port7FFD := (s.bankSelect port v).core.port7FFD } := by
  unfold State.bankSelect
  rw [State.setCore_cfg]
  cases isBankSelect s.cfg port with
  | true => simp only [if_true, State.mapCore, State.core_setCore, State.setCore_setCore, hl]
  | false => exact congrArg (fun latch => s.setCore { c with port7FFD := latch }) hl

/-- A port is written alike whatever else of the module is replaced. -/
theorem State.portWrite_setCore (s : State) (c : Module) (hl : c.port7FFD = s.core.port7FFD) (port : Word) (v : Byte)
    (tw : Nat) : (s.setCore c).portWrite port v tw =
      (s.portWrite port v tw).setCore { c with port7FFD := (s.portWrite port v tw).core.port7FFD } := by
  have hborder (s : State) (c : Module) : (s.setCore c).borderWrite port v tw = (s.borderWrite port v tw).setCore c := by
    simp only [State.borderWrite]; split <;> rfl
  rw [core_portWrite]
  simp only [State.portWrite, State.setCore_cfg, State.setCore_cur, State.bankSelect_setCore s c hl, hborder]
  split <;> rfl

theorem outBlock_eq (step : Word) (rep : Bool) (s : State) : outBlock step rep s =
    blockIoEnd (ioRepeats rep s) (blockIoFlags (s.readByte s.core.hl) (s.core.b - 1) (blockOutputState step rep s).core.l)
      (blockOutputState step rep s) := by
  have hwrite := State.portWrite_setCore s { s.core with b := s.core.b - 1 } rfl
  simp only [outBlock, ioRepeats_eq, State.mapCore_eq, hwrite, State.core_setCore, State.setCore_setCore, ← ioTime_eq,
    blockOutputState]
  rfl

theorem outIteration_ioEnded {step : Word} {rep : Bool} (s : State) (n : Nat) (pc : Word) (f : Byte) (time : Nat)
    (h : BlockIoEnds rep (s.readByte s.core.hl)
      ((s.readByte s.core.hl).toNat + (blockOutputState step rep s).core.l.toNat) s
      (ioEnded (blockOutputState step rep s) n pc f time)) :
    OutIteration step rep s (ioEnded (blockOutputState step rep s) n pc f time) := by
  have hstate : ioEnded (blockOutputState step rep s) n pc f time = _ := ioEnded_setCore _ _ n pc f time
  have hcore := congrArg State.core hstate
  rw [State.core_setCore] at hcore
  refine ⟨⟨n, ?frame⟩, ?heap, ?latch, ?hl, ?core, ?ends⟩
  case frame => rw [hcore]; exact hstate
  case heap => rw [hstate]; exact portWrite_heap ..
  case latch => rw [hcore]; rfl
  case hl => rw [hcore]; exact pair_hiByte_loByte _
  case core => rw [hcore]; rfl
  case ends =>
    have hl : (blockOutputState step rep s).core.l = (ioEnded (blockOutputState step rep s) n pc f time).core.l := by
      rw [hcore, blockOutputState, State.core_setCore]; rfl
    rwa [hl] at h

theorem runsFor_outBlock {i : Instr} (step : Word) (rep : Bool) (he : ∀ s, exec i s = outBlock step rep s) :
    RunsFor i (ioTime rep) true (OutIteration step rep) :=
  runsFor_blockIo (blockOutputState step rep) (fun s => s.readByte s.core.hl)
    (fun s => (blockOutputState step rep s).core.l) (fun s => (he s).trans (outBlock_eq step rep s))
    (fun s => by rw [blockOutputState, State.core_setCore]; rfl)
    (fun s => by rw [blockOutputState, State.core_setCore]; rfl)
    (fun s => congrArg Config.blockRepeatXy (portWrite_cfg s _ _ _))
    outIteration_ioEnded

/-- Settles O60: each instruction is one transfer, and the end that all of them share. -/
theorem blockInputOutput : Obligations.BlockInputOutput := by
  refine ⟨
    ⟨?ini, runsFor_inBlock 1 1 false fun _ => rfl⟩,
    ⟨?ind, runsFor_inBlock 0xFFFF 0xFF false fun _ => rfl⟩,
    ⟨?inir, runsFor_inBlock 1 1 true fun _ => rfl⟩,
    ⟨?indr, runsFor_inBlock 0xFFFF 0xFF true fun _ => rfl⟩,
    ⟨?outi, runsFor_outBlock 1 false fun _ => rfl⟩,
    ⟨?outd, runsFor_outBlock 0xFFFF false fun _ => rfl⟩,
    ⟨?otir, runsFor_outBlock 1 true fun _ => rfl⟩,
    ⟨?otdr, runsFor_outBlock 0xFFFF true fun _ => rfl⟩⟩
  all_goals exact encoded_of_whole ⟨rfl, rfl, rfl⟩ rfl rfl

end Sys2Proof.Machine
end

section
/-!
How the step of any instruction ends: its T-states and the marks it leaves (O10, O11).
-/

namespace Sys2Proof

/-- The instructions whose step leaves one of the three marks (R430). -/
def Instr.leavesMark : Instr → Bool
  | .ei | .ignoredPrefix _ | .ldAI | .ldAR => true
  | _ => false

/-- The instructions of a delay form, which has 4 T-states more, have 17 T-states at most. -/
def Instr.mostTime (i : Instr) : Nat := if i.unaffected then 17 else 23

theorem Instr.le_mostTime {i : Instr} {n : Nat} (h : n ≤ 17 ∨ n ≤ 23 ∧ i.unaffected = false) : n ≤ i.mostTime := by
  unfold Instr.mostTime
  split
  · next hun =>
    obtain h | ⟨-, hno⟩ := h
    · exact h
    · exact absurd (hno.symm.trans hun) Bool.false_ne_true
  · omega

namespace Machine

/-- The module `c'` is at the end of a step of `i` from `c`: 4 T-states or more, and the marks of `i` (R430, R463). -/
structure EndsBy (i : Instr) (c c' : Module) : Prop where
  least : c.t + 4 ≤ c'.t
  most : c'.t ≤ c.t + i.mostTime
  eiDelay : c'.eiDelay = decide (i = .ei)
  prefixBlock : c'.prefixBlock = i.isIgnoredPrefix
  ldair : c'.ldair = decide (i = .ldAI ∨ i = .ldAR)
  q : c'.q = c'.f ∨ c'.q = 0

/-- An answer that is a step of `i` ended. -/
def AnswersEnd (i : Instr) (s : State) (r : Result) : Prop := ∃ t, r = .next t ∧ EndsBy i s.core t.core

section
variable {i : Instr} {s s1 : State}

/-- The one way all instructions end that leave no mark. -/
theorem answersEnd_ended {c : Module} {n : Nat} {q : Byte} (hmark : i.leavesMark = false) (ht : c.t = s.core.t)
    (hn : 4 ≤ n) (hmost : n ≤ 17 ∨ n ≤ 23 ∧ i.unaffected = false) (hq : q = c.f ∨ q = 0) :
    AnswersEnd i s (.next (s1.setCore ((c.spend n).endStep q))) := by
  have hbound := Instr.le_mostTime hmost
  have hno : i ≠ .ei ∧ i.isIgnoredPrefix = false ∧ i ≠ .ldAI ∧ i ≠ .ldAR := by
    cases i with
    | ei | ignoredPrefix | ldAI | ldAR => cases hmark
    | _ => exact ⟨nofun, rfl, nofun, nofun⟩
  obtain ⟨hei, hign, hi, hr⟩ := hno
  refine ⟨_, rfl, ?_⟩
  rw [State.core_setCore]
  exact ⟨by simp [ht, hn], by simp [ht, hbound], by simp [hei], by simp [hign], by simp [hi, hr], hq⟩

theorem answersEnd_ite {p : Prop} [Decidable p] {r r' : Result} (h : AnswersEnd i s r) (h' : AnswersEnd i s r') :
    AnswersEnd i s (if p then r else r') := by
  split <;> assumption

theorem blockTime_bounds (repeats : Bool) : 4 ≤ blockTime repeats ∧ blockTime repeats ≤ 23 := by
  cases repeats <;> decide

variable (hmark : i.leavesMark = false) (hun : i.unaffected = false)
include hmark hun

/-- A block instruction ends in the time of one iteration. -/
theorem answersEnd_block {c : Module} {repeats : Bool} (ht : c.t = s.core.t) :
    AnswersEnd i s (s1.doneFlags (blockTime repeats) c) := by
  obtain ⟨hleast, hmost⟩ := blockTime_bounds repeats
  exact answersEnd_ended hmark ht hleast (.inr ⟨hmost, hun⟩) (.inl rfl)

theorem answersEnd_blockIoEnd (ht : s1.core.t = s.core.t) (repeats : Bool) (fl : Byte) :
    AnswersEnd i s (blockIoEnd repeats fl s1) := by
  unfold blockIoEnd
  refine answersEnd_ite ?_ (answersEnd_block hmark hun ht)
  split <;> exact answersEnd_block hmark hun ht

theorem answersEnd_inBlock (step : Word) (cStep : Byte) (rep : Bool) : AnswersEnd i s (inBlock step cStep rep s) :=
  answersEnd_blockIoEnd hmark hun (by simp [State.portReadDone]) _ _

theorem answersEnd_outBlock (step : Word) (rep : Bool) : AnswersEnd i s (outBlock step rep s) :=
  answersEnd_blockIoEnd hmark hun (by simp) _ _

theorem answersEnd_transferRepeat (step : Word) : AnswersEnd i s (transferRepeat step s) :=
  answersEnd_ite (answersEnd_block hmark hun (by rw [t_repeatBlock, core_transferOnce]; rfl))
    (answersEnd_block hmark hun (by rw [core_transferOnce]; rfl))

theorem answersEnd_searchRepeat (step : Word) : AnswersEnd i s (searchRepeat step s) :=
  answersEnd_ite (answersEnd_block hmark hun (by rw [t_repeatBlock]; rfl)) (answersEnd_block hmark hun rfl)

end

/-- The cases go by how the step ends: with a mark, as a condition says, with a block iteration, or in the one way of all
others. -/
theorem exec_answersEnd {i : Instr} (hlone : i.isLonePrefix = false) (hdelay : ∀ x op, i ≠ .ddFd x op) (s : State) :
    AnswersEnd i s (exec i s) := by
  cases i with
  | prefixCb | prefixDd | prefixEd | prefixFd | prefixDdCb | prefixFdCb => cases hlone
  | ddFd x op => exact absurd rfl (hdelay x op)
  | ei | ignoredPrefix =>
    refine ⟨_, rfl, ?_⟩
    rw [State.core_setCore]
    exact ⟨by simp, by simp [Instr.mostTime, Instr.unaffected], by simp, rfl, by simp, .inr rfl⟩
  | ldAI | ldAR =>
    refine ⟨_, rfl, ?_⟩
    rw [State.core_setCore]
    exact ⟨by simp, by simp [Instr.mostTime, Instr.unaffected], by simp, rfl, by simp, .inl rfl⟩
  | jrCc | jpCcNn | djnz | callCcNn | retCc =>
    exact answersEnd_ite
      (answersEnd_ended rfl (by simp [relativeJump, State.popped]) (by decide) (.inl (by decide)) (.inr rfl))
      (answersEnd_ended rfl (by simp) (by decide) (.inl (by decide)) (.inr rfl))
  | ini => exact answersEnd_inBlock rfl rfl 1 1 false
  | ind => exact answersEnd_inBlock rfl rfl (-1) (-1) false
  | outi => exact answersEnd_outBlock rfl rfl 1 false
  | outd => exact answersEnd_outBlock rfl rfl (-1) false
  | inir | indr => exact answersEnd_inBlock (by rfl) (by rfl) _ _ true
  | otir | otdr => exact answersEnd_outBlock (by rfl) (by rfl) _ true
  | ldir | lddr => exact answersEnd_transferRepeat (by rfl) (by rfl) _
  | cpir | cpdr => exact answersEnd_searchRepeat (by rfl) (by rfl) _
  | _ =>
    exact answersEnd_ended rfl
      (by simp [relativeJump, State.popped, State.leaveHandler, core_transferOnce, transferred, searchOnce]) (by decide)
      (by simp [Instr.unaffected]) (by simp)

theorem endsBy_of_next {i : Instr} (hlone : i.isLonePrefix = false) (hdelay : ∀ x op, i ≠ .ddFd x op) {s t : State}
    (ht : exec i s = .next t) : EndsBy i s.core t.core := by
  obtain ⟨t', ht', hends⟩ := exec_answersEnd hlone hdelay s
  cases ht.symm.trans ht'
  exact hends

/-- A delay form that answers is its instruction, 4 T-states later (R124(d), R286). -/
theorem endsBy_of_ddFd {x : IdxReg} {op : Instr} {s t : State} (ht : exec (.ddFd x op) s = .next t) :
    op.unaffected = true ∧ EndsBy op (s.core.spend 4) t.core := by
  have hun : op.unaffected = true := by
    cases hno : op.unaffected with
    | true => rfl
    | false =>
      have hrefused : exec (.ddFd x op) s = .refused .notAnInstruction := if_neg (Bool.eq_false_iff.mp hno)
      cases hrefused.symm.trans ht
  obtain ⟨-, hlone, -⟩ := whole_of_unaffected hun
  have hends := endsBy_of_next hlone (fun x' op' h => by subst h; cases hun) ((exec_ddFd x hun s).symm.trans ht)
  rw [State.core_mapCore] at hends
  exact ⟨hun, hends⟩

theorem bareInstr_of_ne_ddFd {i : Instr} (h : ∀ x op, i ≠ .ddFd x op) : bareInstr i = i := by
  cases i with
  | ddFd x op => exact absurd rfl (h x op)
  | _ => rfl

theorem not_ldair_of_unaffected {i : Instr} (h : i.unaffected = true) : ¬ (i = .ldAI ∨ i = .ldAR) := by
  rintro (rfl | rfl) <;> cases h

/-- Settles O11: the marks are those of the instruction, inside a delay form too. -/
theorem endOfStepMarks : Obligations.EndOfStepMarks := by
  intro i s t hlone ht
  by_cases hdelay : ∃ x op, i = .ddFd x op
  · obtain ⟨x, op, rfl⟩ := hdelay
    obtain ⟨hun, hends⟩ := endsBy_of_ddFd ht
    obtain ⟨-, -, hign⟩ := whole_of_unaffected hun
    exact ⟨hends.eiDelay, hends.prefixBlock.trans hign,
      hends.ldair.trans (decide_eq_decide.mpr (iff_of_false (not_ldair_of_unaffected hun) nofun)), hends.q⟩
  · have hdelay (x : IdxReg) (op : Instr) : i ≠ .ddFd x op := fun h => hdelay ⟨x, op, h⟩
    have hends := endsBy_of_next hlone hdelay ht
    rw [bareInstr_of_ne_ddFd hdelay]
    exact ⟨hends.eiDelay, hends.prefixBlock, hends.ldair, hends.q⟩

/-! ### T-states (R463) -/

theorem time_of_next {i : Instr} (hlone : i.isLonePrefix = false) {s t : State} (ht : exec i s = .next t) :
    s.core.t + 4 ≤ t.core.t ∧ t.core.t ≤ s.core.t + 23 := by
  by_cases hdelay : ∃ x op, i = .ddFd x op
  · obtain ⟨x, op, rfl⟩ := hdelay
    obtain ⟨hun, hends⟩ := endsBy_of_ddFd ht
    have hleast := hends.least
    have hmost := hends.most
    rw [Instr.mostTime, if_pos hun] at hmost
    simp only [Module.spend_t] at hleast hmost
    omega
  · have hends := endsBy_of_next hlone (fun x op h => hdelay ⟨x, op, h⟩) ht
    have hmost : i.mostTime ≤ 23 := by unfold Instr.mostTime; split <;> decide
    exact ⟨hends.least, Nat.le_trans hends.most (Nat.add_le_add_left hmost _)⟩

/-- A fetch takes no T-states of its own: an instruction's are counted as it ends. -/
theorem t_fetchOperands {s s' : State} {pre : List Byte} {i : Instr} (h : s.fetchOperands pre = some (i, s')) :
    s'.core.t = s.core.t := by
  unfold State.fetchOperands at h
  split at h
  · cases h; rw [State.core_mapCore]
  · cases h

theorem t_afterOpcode (s : State) : s.afterOpcode.core.t = s.core.t := by
  rw [State.afterOpcode, State.core_mapCore, State.hooked_eq, State.core_setCore]

theorem t_fetchAfter {s s' : State} {b0 : Byte} {i : Instr} (h : s.fetchAfter b0 = some (i, s')) :
    s'.core.t = s.core.t := by
  unfold State.fetchAfter at h
  split at h
  · exact (t_fetchOperands h).trans (t_afterOpcode s)
  split at h
  · cases h; rfl
  split at h
  · cases h; rfl
  · exact t_fetchOperands h

/-- What a lone CB, DD, ED or FD goes on to run is another instruction at the same time (R132). -/
theorem exec_lone_eq_exec {i : Instr} (hi : i.isLonePrefix = true) (s : State) :
    ∃ j s', exec i s = exec j s' ∧ j.isLonePrefix = false ∧ s'.core.t = s.core.t := by
  obtain ⟨b0, hb0, -, hexec⟩ | ⟨x, -, hexec⟩ := lonePrefix_cases hi <;> rw [hexec]
  · obtain ⟨j, s', hfetch, -, hlone⟩ := fetchesWhole_fetchAfter s hb0
    exact ⟨j, s', runNext_eq_exec hfetch hlone, hlone, t_fetchAfter hfetch⟩
  · obtain ⟨j, s', hfetch, -, hlone⟩ := fetchesWhole_fetchOperands s x.prefixByte 0xCB
    exact ⟨j, s', runNext_eq_exec hfetch hlone, hlone, t_fetchOperands hfetch⟩

/-- Settles O10: a lone CB, DD, ED or FD spends the T-states of the instruction it completes. -/
theorem instructionTimes : Obligations.InstructionTimes := by
  intro i s t ht
  cases hlone : i.isLonePrefix with
  | false => exact time_of_next hlone ht
  | true =>
    obtain ⟨j, s', hexec, hj, htime⟩ := exec_lone_eq_exec hlone s
    rw [← htime]
    exact time_of_next hj (hexec.symm.trans ht)

end Machine

end Sys2Proof
end

section
/-!
The core step: which kind comes next, taking an interrupt, and the step of a halted core (O16 to O23).
-/

namespace Sys2Proof.Machine

/-! ### The choice (R430, R431) -/

theorem acceptsNmi_eq_true_iff (c : Module) : acceptsNmi c = true ↔ c.nmiPending = true ∧ c.prefixBlock = false := by
  simp [acceptsNmi]

theorem acceptsNmi_eq_false_iff (c : Module) : acceptsNmi c = false ↔ c.nmiPending = false ∨ c.prefixBlock = true := by
  simp only [acceptsNmi, Bool.and_eq_false_iff, Bool.not_eq_false']

theorem acceptsInt_eq_true_iff (int : Bool) (c : Module) : acceptsInt int c = true ↔
    int = true ∧ c.iff1 = true ∧ c.eiDelay = false ∧ c.prefixBlock = false := by
  simp [acceptsInt, and_assoc]

theorem acceptsInt_eq_false_iff (int : Bool) (c : Module) : acceptsInt int c = false ↔
    int = false ∨ c.iff1 = false ∨ c.eiDelay = true ∨ c.prefixBlock = true := by
  simp only [acceptsInt, Bool.and_eq_false_iff, Bool.not_eq_false', or_assoc]

section
variable {int : Bool} {s : State}

theorem coreStep_nmi (hn : acceptsNmi s.core = true) : coreStep int s = acceptNmi s := by
  rw [coreStep, stepKind, if_pos hn]

theorem coreStep_int (hn : acceptsNmi s.core = false) (hi : acceptsInt int s.core = true) :
    coreStep int s = acceptInt s := by
  rw [coreStep, stepKind, hn, hi]; rfl

theorem coreStep_idle (hn : acceptsNmi s.core = false) (hi : acceptsInt int s.core = false)
    (hh : s.core.halted = true) : coreStep int s = haltIdle s := by
  rw [coreStep, stepKind, hn, hi, hh]; rfl

theorem coreStep_instruction (hn : acceptsNmi s.core = false) (hi : acceptsInt int s.core = false)
    (hh : s.core.halted = false) : coreStep int s = instructionStep s := by
  rw [coreStep, stepKind, hn, hi, hh]; rfl

/-- Where no interrupt is accepted the core idles or runs an instruction. -/
theorem coreStep_of_none_accepted (hn : acceptsNmi s.core = false) (hi : acceptsInt int s.core = false) :
    coreStep int s = haltIdle s ∨ coreStep int s = instructionStep s := by
  cases hh : s.core.halted with
  | true => exact .inl (coreStep_idle hn hi hh)
  | false => exact .inr (coreStep_instruction hn hi hh)

theorem coreStep_of_intComes (h : IntComes int s.core) : coreStep int s = acceptInt s := by
  obtain ⟨hint, hiff1, hei, hblock, hnmi⟩ := h
  exact coreStep_int ((acceptsNmi_eq_false_iff _).mpr (.inl hnmi))
    ((acceptsInt_eq_true_iff _ _).mpr ⟨hint, hiff1, hei, hblock⟩)

end

/-- Settles O16: the conditions of the choice, each as the flags it looks at. -/
theorem stepChoice : Obligations.StepChoice := by
  intro int s
  simp only [← acceptsNmi_eq_false_iff, ← acceptsInt_eq_false_iff]
  refine ⟨fun hpending hblock => coreStep_nmi ((acceptsNmi_eq_true_iff _).mpr ⟨hpending, hblock⟩),
    fun hn => ⟨fun hint hiff1 hei hblock => ?_, fun hi => ⟨coreStep_idle hn hi, coreStep_instruction hn hi⟩⟩⟩
  exact coreStep_int hn ((acceptsInt_eq_true_iff _ _).mpr ⟨hint, hiff1, hei, hblock⟩)

/-! ### NMI (R439) -/

/-- Settles O17: NMI acceptance is an interrupt taken with IFF1 cleared. -/
theorem nmiAccepted : Obligations.NmiAccepted := by
  intro int s hpending hblock
  obtain ⟨hstores, hends, hcore⟩ := State.takeInterrupt_spec s
    (fun c => { c with nmiPending := false, iff1 := false }) (fun _ => 0x0066) 11 fun _ => ⟨rfl, rfl, rfl, rfl⟩
  refine ⟨_, coreStep_nmi ((acceptsNmi_eq_true_iff _).mpr ⟨hpending, hblock⟩), hends, hstores, ?_⟩
  rw [hcore]; rfl

/-! ### INT (R436 to R442) -/

/-- The state right after an interrupt has pushed PC (R436). -/
def interrupted (prepare : Module → Module) (s : State) : State :=
  (s.mapCore fun c => prepare { c with halted := false, r := refresh c.r }).push s.core.pc

theorem readByte_takeInterrupt (s : State) (prepare : Module → Module) (target : State → Word) (n : Nat) (b : Word) :
    (s.takeInterrupt prepare target n).readByte b = (interrupted prepare s).readByte b := by
  rw [State.takeInterrupt, State.mapCore_eq]
  refine State.readByte_setCore (interrupted prepare s) _ ?_ ?_ b <;> rfl

/-- An INT taken to `target`, which is read from the state after the push (R436, R442). -/
theorem takeInterrupt_int (bug : Bool) (s : State) (target : State → Word) (n : Nat) :
    EndsStep s.core (s.takeInterrupt (prepareInt bug) target n).core n false ∧
    StoresTwo s (s.takeInterrupt (prepareInt bug) target n) (s.core.sp - 2) (loByte s.core.pc) (hiByte s.core.pc) ∧
    (s.takeInterrupt (prepareInt bug) target n).core = intTaken bug s.core
      (s.takeInterrupt (prepareInt bug) target n).core (target (interrupted (prepareInt bug) s)) := by
  obtain ⟨hstores, hends, hcore⟩ := State.takeInterrupt_spec s (prepareInt bug) target n fun _ => ⟨rfl, rfl, rfl, rfl⟩
  refine ⟨hends, hstores, ?_⟩
  rw [hcore]
  simp only [intTaken, prepareInt, ← Bool.and_eq_true]
  rfl

theorem intAckByte_eq (s : State) : s.intAckByte = busByte s := by
  unfold State.intAckByte busByte State.freeByte; cases s.cfg.intAck <;> rfl

theorem intAckDone_eq (s : State) : s.intAckDone = busRead s := by
  unfold State.intAckDone busRead; cases hk : s.cfg.intAck <;> simp [State.drew]

theorem core_busRead (s : State) : (busRead s).core = s.core := rfl

/-- Settles O18: in IM 1 the handler is at 0x0038. -/
theorem im1Accepted : Obligations.Im1Accepted := by
  intro int s hint him
  have hstep : coreStep int s = acceptIm1 s := by rw [coreStep_of_intComes hint, acceptInt, him]
  exact ⟨_, hstep, takeInterrupt_int s.cfg.ldairIffBug s (fun _ => 0x0038) 13⟩

/-- Settles O19: in IM 2 the handler's address is a word of memory after the push. -/
theorem im2Accepted : Obligations.Im2Accepted := by
  intro int s hint him
  have hstep : coreStep int s = acceptIm2 s := by rw [coreStep_of_intComes hint, acceptInt, him]
  rw [acceptIm2, intAckByte_eq, intAckDone_eq] at hstep
  obtain ⟨hends, hstores, hcore⟩ := takeInterrupt_int s.cfg.ldairIffBug (busRead s)
    (fun pushed => pushed.readWord (pair pushed.core.i (busByte s))) 19
  refine ⟨_, hstep, hends, hstores, ?_⟩
  have hi : (interrupted (prepareInt s.cfg.ldairIffBug) (busRead s)).core.i = s.core.i := by
    rw [interrupted, State.core_push, State.core_mapCore]; rfl
  rw [readByte_takeInterrupt, readByte_takeInterrupt]
  rw [hi] at hcore
  exact hcore

theorem rstTarget_eq (v : Byte) : rstTarget v = BitVec.ofNat 16 (v &&& 0x38).toNat := by decide +revert

theorem isRst_iff (v : Byte) : isRst v = true ↔ v &&& 0xC7 = 0xC7 := beq_iff_eq

/-- Settles O20: in IM 0 an RST on the bus is the restart, anything else is refused. -/
theorem im0Accepted : Obligations.Im0Accepted := by
  intro int s hint him
  have hstep : coreStep int s = acceptIm0 s := by rw [coreStep_of_intComes hint, acceptInt, him]
  rw [acceptIm0, intAckByte_eq, intAckDone_eq] at hstep
  refine ⟨fun hno => hstep.trans (if_neg (mt (isRst_iff _).mp hno)), fun hrst => ?_⟩
  rw [if_pos ((isRst_iff _).mpr hrst), rstTarget_eq] at hstep
  exact ⟨_, hstep, takeInterrupt_int s.cfg.ldairIffBug (busRead s)
    (fun _ => BitVec.ofNat 16 (busByte s &&& 0x38).toNat) 13⟩

/-! ### HALT (R446) -/

/-- Settles O22: the idle step is one M1 cycle. -/
theorem haltIdles : Obligations.HaltIdles := by
  intro int s hhalted hn hi
  refine ⟨_, coreStep_idle ((acceptsNmi_eq_false_iff _).mpr hn) ((acceptsInt_eq_false_iff _ _).mpr hi) hhalted, ?_,
    quiet_setCore s _ rfl rfl, ?_⟩ <;> rw [State.core_setCore]
  · exact endsStep_done rfl 4
  · rfl

/-! ### Boundaries (R431, R442, R511, R512) -/

/-- An INT that is accepted is taken, after the bus is read where the mode reads it (R436). -/
theorem acceptInt_next {s u : State} (h : acceptInt s = .next u) :
    ∃ (s' : State) (target : State → Word) (n : Nat), s'.core = s.core ∧
    u = s'.takeInterrupt (prepareInt s.cfg.ldairIffBug) target n := by
  unfold acceptInt at h
  split at h
  · rw [acceptIm0, intAckDone_eq] at h
    split at h
    · cases h; exact ⟨_, _, _, core_busRead s, rfl⟩
    · cases h
  · cases h; exact ⟨_, _, _, rfl, rfl⟩
  · rw [acceptIm2, intAckDone_eq] at h
    cases h; exact ⟨_, _, _, core_busRead s, rfl⟩

theorem flagP_and_fb (f : Byte) : flagP (f &&& 0xFB) = false := by
  simp [flagP]

/-- Settles O21: each mark is left by its instruction (O11) and looked at by the choice or by the acceptance. -/
theorem boundariesAfterMarks : Obligations.BoundariesAfterMarks := by
  refine ⟨fun int s t ht hnmi => ?ei, fun x int s t ht => ?ignored, fun i int s t u hi ht hint hbug hu => ?ldair⟩
  case ei =>
    obtain ⟨hei, -⟩ := endOfStepMarks .ei s t rfl ht
    exact coreStep_of_none_accepted ((acceptsNmi_eq_false_iff _).mpr (.inl hnmi))
      ((acceptsInt_eq_false_iff _ _).mpr (.inr (.inr (.inl hei))))
  case ignored =>
    obtain ⟨-, hblock, -⟩ := endOfStepMarks (.ignoredPrefix x) s t rfl ht
    exact coreStep_of_none_accepted ((acceptsNmi_eq_false_iff _).mpr (.inr hblock))
      ((acceptsInt_eq_false_iff _ _).mpr (.inr (.inr (.inr hblock))))
  case ldair =>
    have hlone : i.isLonePrefix = false := by rcases hi with rfl | rfl <;> rfl
    obtain ⟨-, -, hldair, -⟩ := endOfStepMarks i s t hlone ht
    rw [decide_eq_true hi] at hldair
    obtain ⟨s', target, n, hcore, rfl⟩ := acceptInt_next ((coreStep_of_intComes hint).symm.trans hu)
    obtain ⟨-, -, htaken⟩ := takeInterrupt_int t.cfg.ldairIffBug s' target n
    have hf := congrArg Module.f htaken
    rw [intTaken, hcore, if_pos ⟨hldair, hbug⟩] at hf
    rw [hf]
    exact flagP_and_fb _

/-! ### RETN after an NMI (R445) -/

/-- The word at two stored bytes, both in RAM. -/
theorem StoresTwo.wordAt_eq {s t : State} {a : Word} {lo hi : Byte} (h : StoresTwo s t a lo hi)
    (hlow : s.isRam a = true) (hhigh : s.isRam (a + 1) = true) : wordAt t a = pair hi lo := by
  obtain ⟨-, hread, -⟩ := h
  rw [wordAt, hread, hread, sameByte_self, sameByte_self, sameByte_succ_right, hlow, hhigh]
  rfl

/-- Settles O23: RETN pops what the NMI pushed, and IFF2 is what the NMI kept of it. -/
theorem retnUndoesNmi : Obligations.RetnUndoesNmi := by
  intro int s t y hhigh hlow hpending hblock ht
  obtain ⟨t', ht', -, hstores, hcore⟩ := nmiAccepted int s hpending hblock
  cases ht.symm.trans ht'
  have hsp : t.core.sp = s.core.sp - 2 := congrArg Module.sp hcore
  have hiff2 : t.core.iff2 = s.core.iff2 := (congrArg Module.iff2 hcore :)
  have hpc : wordAt t t.core.sp = s.core.pc := by
    rw [hsp, hstores.wordAt_eq hlow (by rw [sub_two_add_one]; exact hhigh), pair_hiByte_loByte]
  refine ⟨_, exec_retn y t, ?_, ?_, ?_, ?_⟩ <;> rw [State.core_setCore]
  · exact hpc
  · exact (congrArg (· + 2) hsp).trans (BitVec.sub_add_cancel _ _)
  · exact hiff2
  · exact hiff2

end Sys2Proof.Machine
end

section
/-!
The fetch of an instruction, and the board step around a core step (O5, O6).
-/

namespace Sys2Proof

/-! ### Decoding more bytes -/

/-- Bytes after those the decoder has answered for are left over (R132). -/
theorem decode_append {bs rest : List Byte} {i : Instr} (h : decode bs = some (i, rest))
    (hlone : i.isLonePrefix = false) (hign : i.isIgnoredPrefix = false) (more : List Byte) :
    decode (bs ++ more) = some (i, rest ++ more) := by
  have hans := decode_answers bs
  rw [h] at hans
  obtain ⟨hwf, -, henc⟩ := hans
  rw [← henc, List.append_assoc]
  exact decode_encode hwf hlone hign

/-- An answer takes one byte at least (R132). -/
theorem length_lt_of_decode {bs rest : List Byte} {i : Instr} (h : decode bs = some (i, rest)) :
    rest.length < bs.length := by
  have hpos := List.length_pos_iff.mpr (encode_ne_nil i)
  rw [← encodeOfDecode bs rest i h, List.length_append]
  omega

/-- An opcode other than CB, DD, ED and FD, with two bytes after it, is a whole instruction that begins with it (R127). -/
theorem decode_opcode {b : Byte} (hb : isPrefix b = false) (n0 n1 : Byte) : ∃ i rest,
    decode [b, n0, n1] = some (i, rest) ∧ i.wellFormed = true ∧ i.isLonePrefix = false ∧
      ∃ operands, encode i = b :: operands := by
  have hreads := decodeUnprefixed_reads (rest := [n0, n1]) hb
  rw [decode_unprefixed hb]
  cases hd : decodeUnprefixed b [n0, n1] with
  | none =>
    rw [hd] at hreads
    exact absurd hreads (Nat.lt_irrefl 2)
  | some p =>
    rw [hd] at hreads
    obtain ⟨hwf, hlone, henc⟩ := hreads
    obtain ⟨c, operands, hi⟩ := List.exists_cons_of_ne_nil (encode_ne_nil p.1)
    rw [hi] at henc
    obtain rfl : c = b := List.head_eq_of_cons_eq henc
    exact ⟨p.1, p.2, rfl, hwf, hlone, operands, hi⟩

theorem isIgnoredPrefix_of_opcode {i : Instr} {b : Byte} {operands : List Byte} (h : encode i = b :: operands)
    (hb : isPrefix b = false) : i.isIgnoredPrefix = false := by
  cases i with
  | ignoredPrefix x =>
    obtain rfl : x.prefixByte = b := List.head_eq_of_cons_eq h
    exact absurd (hb.symm.trans (Machine.isPrefix_prefixByte x)) Bool.false_ne_true
  | _ => rfl

namespace Machine

theorem m1Count_of_opcode {i : Instr} {b : Byte} {operands : List Byte} (h : encode i = b :: operands)
    (hb : isPrefix b = false) : m1Count i = 1 := by
  rw [m1Count, h]
  cases operands with
  | nil => rfl
  | cons => exact if_neg (Bool.eq_false_iff.mp hb)

/-! ### One opcode byte -/

theorem fetchAfter_opcode {s : State} {b : Byte} (h : isPrefix b = false) : s.fetchAfter b = s.fetchOperands [b] := by
  simp_all [isPrefix, cancelsPrefix, State.fetchAfter, fetchesSecond]

/-- Every fetch gives a whole instruction (R7, R132). -/
theorem fetchesWhole_fetch (s : State) : FetchesWhole s.fetch := by
  cases hb : isPrefix s.opcodeByte with
  | true => exact fetchesWhole_fetchAfter _ hb
  | false =>
    obtain ⟨i, rest, hdecode, hwf, hlone, -⟩ := decode_opcode hb (s.afterOpcode.readByte (s.afterOpcode.core.pc + 0))
      (s.afterOpcode.readByte (s.afterOpcode.core.pc + 1))
    exact ⟨i, _, (fetchAfter_opcode hb).trans (fetchOperands_eq hdecode), hwf, hlone⟩

theorem instructionStep_of_fetch {s s' : State} {i : Instr} (h : s.fetch = some (i, s')) :
    instructionStep s = exec i s' := by
  rw [instructionStep, h]

theorem instructionStep_completes (s : State) : ∃ t, instructionStep s = .next t := by
  obtain ⟨i, s', hfetch, hwf, hlone⟩ := fetchesWhole_fetch s
  obtain ⟨t, ht, -⟩ := exec_completes hwf hlone s'
  exact ⟨t, (instructionStep_of_fetch hfetch).trans ht⟩

/-! ### The fetch with no hook -/

theorem State.pastFetch_one (s : State) (bytes m1 : Nat) :
    (s.pastFetch 1 1).pastFetch bytes m1 = s.pastFetch (1 + bytes) (m1 + 1) := by
  simp only [State.pastFetch, State.mapCore, State.core_setCore, State.setCore_setCore, ← BitVec.ofNat_add_ofNat,
    ← BitVec.add_assoc]
  rfl

/-- With no hook the fetch takes the bytes of the instruction at PC and counts its M1 cycles (R46, R132). -/
theorem fetch_of_identity {s : State} {i : Instr} {rest : List Byte} (hook : s.cfg.trdosHook = .identity)
    (h : decode (s.bytesAtPc 4) = some (i, rest)) :
    s.fetch = some (i, s.pastFetch (4 - rest.length) (m1Count i)) := by
  obtain ⟨hbyte, hafter⟩ := afterOpcode_of_identity hook
  rw [State.fetch, hbyte, hafter]
  rw [bytesAtPc_succ s 1] at h
  cases hb : isPrefix (s.readByte s.core.pc) with
  | true =>
    have hm1 : 1 ≤ m1Count i := (Laws.Length.m1_bounds i (List.length_pos_iff.mpr (encode_ne_nil i))).1
    have hrest : rest.length < 4 := length_lt_of_decode h
    have hpc : 1 + (3 - rest.length) = 4 - rest.length := by omega
    rw [fetchAfter_of_identity (s := s.pastFetch 1 1) hook hb h, State.pastFetch_one, hpc, Nat.sub_add_cancel hm1]
  | false =>
    obtain ⟨j, rest', hj, -, hlone, operands, henc⟩ := decode_opcode hb
      ((s.pastFetch 1 1).readByte ((s.pastFetch 1 1).core.pc + 0)) ((s.pastFetch 1 1).readByte ((s.pastFetch 1 1).core.pc + 1))
    cases h.symm.trans (decode_append hj hlone (isIgnoredPrefix_of_opcode henc hb) [_])
    have hrest : rest'.length < 3 := length_lt_of_decode hj
    have hpc (n : Byte) : 1 + (2 - rest'.length) = 4 - (rest' ++ [n]).length := by
      rw [List.length_append, List.length_singleton]
      omega
    rw [fetchAfter_opcode hb, fetchOperands_eq hj, State.pastFetch_one, m1Count_of_opcode henc hb, hpc]

/-! ### The fetch under a hook (R98) -/

theorem hooked_eq_hookFlag (s : State) : s.hooked =
    ({ s with draws := s.draws + if s.cfg.trdosHook = TrdosHook.free then 1 else 0 }).mapCore
      fun c => { c with trdos := hookFlag s } := by
  unfold State.hooked hookFlag
  cases s.cfg.trdosHook with
  | identity => exact (State.setCore_core s).symm
  | given tree => rfl
  | free => rfl

theorem opcodeByte_eq (s : State) : s.opcodeByte = fetchedByte s := by
  rw [State.opcodeByte, hooked_eq_hookFlag]
  exact State.readByte_congr rfl rfl rfl rfl rfl rfl _

theorem afterOpcode_eq (s : State) : s.afterOpcode = fetchedOne s := by
  rw [State.afterOpcode, hooked_eq_hookFlag]
  simp only [State.mapCore, State.core_setCore, State.setCore_setCore]
  rfl

theorem fetch_eq (s : State) : s.fetch = (fetchedOne s).fetchAfter (fetchedByte s) := by
  rw [State.fetch, opcodeByte_eq, afterOpcode_eq]

theorem isPrefix_iff_mem (b : Byte) : isPrefix b = true ↔ b ∈ ([0xCB, 0xDD, 0xED, 0xFD] : List Byte) := by
  simp [isPrefix, cancelsPrefix, or_assoc]

theorem cancelsPrefix_iff_mem (b : Byte) : cancelsPrefix b = true ↔ b ∈ ([0xDD, 0xED, 0xFD] : List Byte) := by
  simp [cancelsPrefix, or_assoc]

section
variable {s : State} {i : Instr} {rest : List Byte}

/-- One opcode fetch, then the operand bytes (R132). -/
theorem fetch_opcode (hb : fetchedByte s ∉ ([0xCB, 0xDD, 0xED, 0xFD] : List Byte))
    (h : decode (fetchedByte s :: (fetchedOne s).bytesAtPc 2) = some (i, rest)) :
    s.fetch = some (i, pastOperands (fetchedOne s) rest) := by
  have hno : isPrefix (fetchedByte s) = false := Bool.eq_false_iff.mpr (mt (isPrefix_iff_mem _).mp hb)
  rw [fetch_eq, fetchAfter_opcode hno]
  exact fetchOperands_eq h

/-- DD or FD before DD, ED or FD (R132, R285). -/
theorem fetch_ignored (hb : fetchedByte s = 0xDD ∨ fetchedByte s = 0xFD)
    (hahead : (fetchedOne s).readByte (fetchedOne s).core.pc ∈ ([0xDD, 0xED, 0xFD] : List Byte)) :
    s.fetch = some (.ignoredPrefix (if fetchedByte s = 0xDD then .ix else .iy), fetchedOne s) := by
  have hcancels := (cancelsPrefix_iff_mem _).mpr hahead
  rw [fetch_eq]
  obtain hb | hb := hb <;> rw [hb]
  · exact fetchAfter_ignored .ix hcancels
  · exact fetchAfter_ignored .iy hcancels

/-- Two opcode fetches, then the operand bytes (R132). -/
theorem fetch_second (hb : fetchedByte s ∈ ([0xCB, 0xDD, 0xED, 0xFD] : List Byte))
    (hno : ¬ ((fetchedByte s = 0xDD ∨ fetchedByte s = 0xFD) ∧
      (fetchedOne s).readByte (fetchedOne s).core.pc ∈ ([0xDD, 0xED, 0xFD] : List Byte)))
    (h : decode (fetchedByte s :: fetchedByte (fetchedOne s) :: (fetchedOne (fetchedOne s)).bytesAtPc 2) =
      some (i, rest)) :
    s.fetch = some (i, pastOperands (fetchedOne (fetchedOne s)) rest) := by
  obtain hsecond | ⟨x, hx, hcancels⟩ := fetchesSecond_or_ignored ((isPrefix_iff_mem _).mpr hb)
    ((fetchedOne s).readByte (fetchedOne s).core.pc)
  · rw [fetch_eq, fetchAfter_second hsecond, opcodeByte_eq, afterOpcode_eq]
    exact fetchOperands_eq h
  · have hddFd : fetchedByte s = 0xDD ∨ fetchedByte s = 0xFD := by rw [hx]; cases x <;> simp [IdxReg.prefixByte]
    exact absurd ⟨hddFd, (cancelsPrefix_iff_mem _).mp hcancels⟩ hno

end

/-! ### The board step (R451) -/

/-- What no host event changes, and not the rest of the schedule, the inputs of a board step leave as it is (R491). -/
theorem takeInputs_kept {α : Type} (f : State → α) (hdeliver : ∀ s e, f (s.deliver e) = f s)
    (hlater : ∀ s later, f { s with hostInputs := later } = f s) (s : State) : f s.takeInputs = f s := by
  have hfold (batch : List HostEvent) : ∀ s, f (batch.foldl State.deliver s) = f s := by
    induction batch with
    | nil => exact fun _ => rfl
    | cons e batch ih => exact fun s => (ih _).trans (hdeliver s e)
  unfold State.takeInputs
  split
  · rfl
  · exact (hfold _ _).trans (hlater _ _)

theorem cfg_takeInputs (s : State) : s.takeInputs.cfg = s.cfg :=
  takeInputs_kept State.cfg (fun _ e => by cases e <;> rfl) (fun _ _ => rfl) s

theorem cfg_opened (s : State) : s.opened.cfg = s.cfg := by
  unfold State.opened State.startFrame
  split <;> rfl

/-- A board step with no reset is the core step of the selected module, then the end of the board step (R451, R456). -/
theorem step_eq_thenClosed {s : State} (h : s.takeInputs.resetReq = false) :
    step s = thenClosed (coreStep (s.takeInputs.opened.intLevel s.takeInputs.opened.cur) s.takeInputs.opened) := by
  have hrun : step s = runOpened s.takeInputs.opened := if_neg (Bool.eq_false_iff.mp h)
  have hone (int : Bool) (s : State) : moduleStep int 1 s = coreStep int s := rfl
  rw [hrun, runOpened, hone]
  cases coreStep (s.takeInputs.opened.intLevel s.takeInputs.opened.cur) s.takeInputs.opened <;> rfl

/-- A board step that fetches runs the instruction of its fetch. -/
theorem step_of_fetch {s s' : State} {i : Instr} (h : s.takeInputs.resetReq = false)
    (hkind : stepKind (s.takeInputs.opened.intLevel s.takeInputs.opened.cur) s.takeInputs.opened.core = .instruction)
    (hfetch : s.takeInputs.opened.fetch = some (i, s')) : step s = thenClosed (exec i s') := by
  rw [step_eq_thenClosed h, coreStep, hkind]
  exact congrArg thenClosed (instructionStep_of_fetch hfetch)

/-- Settles O5: the board step is its core step, an instruction step its fetch and `exec`. -/
theorem stepRunsInstruction : Obligations.StepRunsInstruction := by
  refine ⟨fun s h => step_eq_thenClosed h, fun s i rest h hkind hook hdecode => ?_,
    fun s i rest h hkind => ⟨fun hb hdecode => step_of_fetch h hkind (fetch_opcode hb hdecode),
      fun hign => step_of_fetch h hkind (fetch_ignored hign.1 hign.2),
      fun hb hno hdecode => step_of_fetch h hkind (fetch_second hb hno hdecode)⟩⟩
  have hook' : s.takeInputs.opened.cfg.trdosHook = .identity := by rw [cfg_opened, cfg_takeInputs, hook]
  exact step_of_fetch h hkind (fetch_of_identity hook' hdecode)

/-- The refusal of R441, and where it can come from. -/
def RefusesIm0 (int : Bool) (s : State) : Prop :=
  coreStep int s = .refused .im0NotRst ∧ stepKind int s.core = .int ∧ s.core.im = .im0 ∧ isRst s.intAckByte = false

theorem acceptInt_answers (s : State) : (∃ t, acceptInt s = .next t) ∨
    (acceptInt s = .refused .im0NotRst ∧ s.core.im = .im0 ∧ isRst s.intAckByte = false) := by
  unfold acceptInt
  cases him : s.core.im with
  | im0 =>
    cases hrst : isRst s.intAckByte with
    | true => exact .inl ⟨_, if_pos hrst⟩
    | false => exact .inr ⟨if_neg (Bool.eq_false_iff.mp hrst), rfl, rfl⟩
  | im1 => exact .inl ⟨_, rfl⟩
  | im2 => exact .inl ⟨_, rfl⟩

theorem coreStep_answers (int : Bool) (s : State) : (∃ t, coreStep int s = .next t) ∨ RefusesIm0 int s := by
  unfold RefusesIm0 coreStep
  cases hkind : stepKind int s.core with
  | nmi => exact .inl ⟨_, rfl⟩
  | int => exact (acceptInt_answers s).imp_right fun ⟨hrefused, him, hrst⟩ => ⟨hrefused, rfl, him, hrst⟩
  | idle => exact .inl ⟨_, rfl⟩
  | instruction => exact .inl (instructionStep_completes s)

/-- Settles O6: each kind of core step answers, but for the acceptance in IM 0. -/
theorem stepNeverFaults : Obligations.StepNeverFaults := by
  intro s
  cases hreset : s.takeInputs.resetReq with
  | true => exact .inl ⟨_, if_pos hreset⟩
  | false =>
    rw [step_eq_thenClosed hreset]
    obtain ⟨t, ht⟩ | ⟨hrefused, hkind, him, hrst⟩ :=
      coreStep_answers (s.takeInputs.opened.intLevel s.takeInputs.opened.cur) s.takeInputs.opened
    · exact .inl ⟨t.closed, by rw [ht]; rfl⟩
    · exact .inr ⟨by rw [hrefused]; rfl, hkind, him, hrst⟩

end Machine

end Sys2Proof
end

section
/-!
The board around the cores: the selection, the frame, the host's inputs, the reset and what a port read gives (O24, O28 to O31).
-/

namespace Sys2Proof.Machine

/-! ### The selection (R452, R453) -/

/-- The best is one of the modules numbered below `n`, and of them the furthest behind, the lowest of those level with it. -/
def FurthestBehind (mods : Quad Module) (best : ModuleId) (n : Nat) : Prop :=
  moduleNo best < n ∧ ∀ m, moduleNo m < n → (mods.get best).t ≤ (mods.get m).t ∧
    (moduleNo m < moduleNo best → (mods.get best).t < (mods.get m).t)

theorem moduleNo_lt (m : ModuleId) : moduleNo m < 4 := by cases m <;> decide

theorem moduleNo_inj {m n : ModuleId} (h : moduleNo m = moduleNo n) : m = n := by
  cases m <;> cases n <;> simp_all [moduleNo]

theorem FurthestBehind.first (mods : Quad Module) : FurthestBehind mods .m0 1 := by
  refine ⟨Nat.one_pos, fun m hm => ?_⟩
  obtain rfl : m = .m0 := moduleNo_inj (Nat.lt_one_iff.mp hm)
  exact ⟨Nat.le_refl _, fun h => absurd h (Nat.lt_irrefl _)⟩

/-- The next module takes over only where it is strictly further behind. -/
theorem FurthestBehind.earlier {mods : Quad Module} {best m : ModuleId} (h : FurthestBehind mods best (moduleNo m)) :
    FurthestBehind mods (earlier mods best m) (moduleNo m + 1) := by
  obtain ⟨hbest, hall⟩ := h
  unfold Machine.earlier
  split
  · refine ⟨Nat.lt_succ_self _, fun k hk => ?_⟩
    obtain hlt | heq := Nat.lt_or_eq_of_le (Nat.le_of_lt_succ hk)
    · obtain ⟨hle, -⟩ := hall k hlt
      exact ⟨by omega, fun _ => by omega⟩
    · obtain rfl := moduleNo_inj heq
      exact ⟨Nat.le_refl _, fun h => absurd h (Nat.lt_irrefl _)⟩
  · refine ⟨Nat.lt_succ_of_lt hbest, fun k hk => ?_⟩
    obtain hlt | heq := Nat.lt_or_eq_of_le (Nat.le_of_lt_succ hk)
    · exact hall k hlt
    · obtain rfl := moduleNo_inj heq
      exact ⟨by omega, fun h => absurd h (Nat.lt_asymm hbest)⟩

theorem t_earlier (mods : Quad Module) (best m : ModuleId) :
    (mods.get (earlier mods best m)).t = min (mods.get best).t (mods.get m).t := by
  unfold earlier; split <;> omega

theorem select_classic {s : State} (h : s.cfg.boardMode = .classic) : s.select = .m0 := by rw [State.select, h]

theorem select_zxpoly {s : State} (h : s.cfg.boardMode = .zxpoly) :
    s.select = earlier s.mods (earlier s.mods (earlier s.mods .m0 .m1) .m2) .m3 := by rw [State.select, h]

/-- Settles O28: CLASSIC has one active module; in ZXPOLY each comparison keeps the best so far. -/
theorem selectsFurthestBehind : Obligations.SelectsFurthestBehind := by
  intro s
  cases hmode : s.cfg.boardMode with
  | classic =>
    rw [select_classic hmode, State.frameT, hmode]
    refine ⟨by rw [isActive, hmode]; rfl, rfl, fun _ => rfl, fun m hm => ?_⟩
    rw [isActive, hmode] at hm
    obtain rfl : m = .m0 := eq_of_beq hm
    exact ⟨Nat.le_refl _, fun h => absurd h (Nat.lt_irrefl _)⟩
  | zxpoly =>
    have ⟨_, hbest⟩ : FurthestBehind s.mods s.select 4 := by
      rw [select_zxpoly hmode]
      exact (((FurthestBehind.first s.mods).earlier (m := .m1)).earlier (m := .m2)).earlier (m := .m3)
    refine ⟨by rw [isActive, hmode], ?_, nofun, fun m _ => hbest m (moduleNo_lt m)⟩
    rw [select_zxpoly hmode, State.frameT, hmode, t_earlier, t_earlier, t_earlier]


theorem get_set {α : Type} (q : Quad α) (m : ModuleId) (v : α) (n : ModuleId) :
    (q.set m v).get n = if n = m then v else q.get n := by
  split
  · next h => rw [h, Quad.get_set_self]
  · next h => rw [Quad.get_set_of_ne q h]

/-! ### The reset (R500 to R504) -/

theorem resetModule_zero : ResetModule Module.zero := by unfold ResetModule; decide

theorem zeroRegisters_zero : ZeroRegisters Module.zero := by unfold ZeroRegisters; decide

theorem resetModule_silicon (k : Nat) : ResetModule (Module.silicon k) := resetModule_zero

theorem resetModule_resetModules (g : Config) (k : Nat) (m : ModuleId) : ResetModule ((resetModules g k).get m) := by
  unfold resetModules
  split
  · rw [Quad.get_all]; exact resetModule_zero
  · cases m <;> exact resetModule_silicon _

theorem zeroRegisters_resetModules {g : Config} (h : g.resetValues = .zero) (k : Nat) (m : ModuleId) :
    ZeroRegisters ((resetModules g k).get m) := by
  rw [resetModules, h]
  exact (Quad.get_all Module.zero m).symm ▸ zeroRegisters_zero

theorem heap_takeInputs (s : State) : s.takeInputs.heap = s.heap :=
  takeInputs_kept State.heap (fun _ e => by cases e <;> rfl) (fun _ _ => rfl) s

theorem rom_takeInputs (s : State) : s.takeInputs.rom = s.rom :=
  takeInputs_kept State.rom (fun _ e => by cases e <;> rfl) (fun _ _ => rfl) s

theorem frameNo_takeInputs (s : State) : s.takeInputs.frameNo = s.frameNo :=
  takeInputs_kept State.frameNo (fun _ e => by cases e <;> rfl) (fun _ _ => rfl) s

/-- Settles O24: the board step is `boardReset` of the state with its inputs taken. -/
theorem resetTaken : Obligations.ResetTaken := by
  intro s hreset
  have hborder : s.takeInputs.boardReset.borderLine = List.replicate s.cfg.timing.linesPerFrame 0 :=
    congrArg (fun g : Config => List.replicate g.timing.linesPerFrame 0) (cfg_takeInputs s)
  refine ⟨s.takeInputs.boardReset, if_pos hreset, fun m => ⟨resetModule_resetModules _ _ m, fun hzero => ?_⟩,
    rfl, rfl, rfl, rfl, rfl, hborder, Quad.get_all false, rfl, rfl, rfl, rfl,
    heap_takeInputs s, rom_takeInputs s, frameNo_takeInputs s, cfg_takeInputs s⟩
  exact zeroRegisters_resetModules ((congrArg Config.resetValues (cfg_takeInputs s)).trans hzero) _ m

/-! ### The frame (R451, R454) -/

theorem intLevel_tstate {s : State} (h : s.cfg.intSource = .tstate) (m : ModuleId) : s.intLevel m = true ↔
    s.cfg.timing.intStart ≤ (s.mods.get m).t ∧ (s.mods.get m).t < s.cfg.timing.intStart + s.cfg.timing.intLength := by
  simp [State.intLevel, h]

theorem intLevel_wallclock {s : State} (h : s.cfg.intSource = .wallclock) (m : ModuleId) :
    s.intLevel m = s.wallInt.get m := by
  rw [State.intLevel, h]

theorem startFrame_of_pending {s : State} (h : s.frameStartPending = true) : s.startFrame = { s with
    keysVisible := s.keysLive, joyVisible := s.joyLive
    borderLine := List.replicate s.cfg.timing.linesPerFrame s.borderCur, frameStartPending := false } := if_pos h

theorem startFrame_of_started {s : State} (h : s.frameStartPending = false) : s.startFrame = s :=
  if_neg (Bool.eq_false_iff.mp h)

theorem earlier_congr {mods mods' : Quad Module} (h : ∀ m, (mods'.get m).t = (mods.get m).t) (best m : ModuleId) :
    earlier mods' best m = earlier mods best m := by
  unfold earlier
  rw [h, h]

/-- The selection looks at the counters only. -/
theorem select_congr {s t : State} (hcfg : t.cfg = s.cfg) (h : ∀ m, (t.mods.get m).t = (s.mods.get m).t) :
    t.select = s.select := by
  unfold State.select
  rw [hcfg]
  simp only [earlier_congr h]

theorem detectNmi_active {s : State} {m : ModuleId} (h : isActive s.cfg m = true) :
    s.detectNmi.mods.get m = (s.mods.get m).seeNmi s.nmiLine := by
  rw [State.detectNmi, Quad.get_mapId, if_pos h]

theorem detectNmi_inactive {s : State} {m : ModuleId} (h : isActive s.cfg m = false) :
    s.detectNmi.mods.get m = s.mods.get m := by
  rw [State.detectNmi, Quad.get_mapId, if_neg (Bool.eq_false_iff.mp h)]

theorem t_detectNmi (s : State) (m : ModuleId) : (s.detectNmi.mods.get m).t = (s.mods.get m).t := by
  cases h : isActive s.cfg m with
  | true => rw [detectNmi_active h]; rfl
  | false => rw [detectNmi_inactive h]

theorem cur_opened (s : State) : s.opened.cur = s.select := by
  cases h : s.frameStartPending with
  | true => rw [State.opened, startFrame_of_pending h]; exact select_congr rfl (t_detectNmi s)
  | false => rw [State.opened, startFrame_of_started h]; exact select_congr rfl (t_detectNmi s)

theorem opened_of_pending {s : State} (h : s.frameStartPending = true) : s.opened = { s with
    cur := s.select, resetSeen := false, mods := s.detectNmi.mods, keysVisible := s.keysLive, joyVisible := s.joyLive
    borderLine := List.replicate s.cfg.timing.linesPerFrame s.borderCur, frameStartPending := false } := by
  rw [← cur_opened, State.opened, startFrame_of_pending h]
  rfl

theorem opened_of_started {s : State} (h : s.frameStartPending = false) : s.opened = { s with
    cur := s.select, resetSeen := false, mods := s.detectNmi.mods } := by
  rw [← cur_opened, State.opened, startFrame_of_started h]
  rfl

theorem clearWall_tstate {s : State} (h : s.cfg.intSource = .tstate) : s.clearWall = s := by rw [State.clearWall, h]

theorem clearWall_eq (s : State) : s.clearWall = { s with wallInt := s.clearWall.wallInt } := by
  unfold State.clearWall
  split <;> rfl

/-- Every active module has reached the frame's end. -/
def FrameEnded (s : State) : Prop := ∀ m, isActive s.cfg m = true → tstatesPerFrame s.cfg.timing ≤ (s.mods.get m).t

theorem frameDone_iff (s : State) : s.frameDone = true ↔ FrameEnded s := by
  have hall (p : ModuleId → Prop) : (((p .m0 ∧ p .m1) ∧ p .m2) ∧ p .m3) ↔ ∀ m, p m :=
    ⟨fun ⟨⟨⟨h0, h1⟩, h2⟩, h3⟩ m => by cases m <;> assumption, fun h => ⟨⟨⟨h _, h _⟩, h _⟩, h _⟩⟩
  simp only [State.frameDone, Bool.and_eq_true, Bool.or_eq_true, Bool.not_eq_true', decide_eq_true_eq,
    ← Bool.not_eq_true, ← Decidable.imp_iff_not_or]
  exact hall fun m => isActive s.cfg m = true → tstatesPerFrame s.cfg.timing ≤ (s.mods.get m).t

/-- The state with its wall-clock request cleared and its frame ended or not (R451). -/
theorem closed_of_done {s : State} (h : FrameEnded s) : s.closed = { s.completeFrame with wallInt := s.clearWall.wallInt } := by
  have hdone : s.clearWall.frameDone = true := by
    rw [clearWall_eq]
    exact (frameDone_iff s).mpr h
  rw [State.closed, if_pos hdone, clearWall_eq]
  rfl

theorem closed_of_not_done {s : State} (h : ¬ FrameEnded s) : s.closed = { s with wallInt := s.clearWall.wallInt } := by
  have hdone : ¬ s.clearWall.frameDone = true := by
    rw [clearWall_eq]
    exact mt (frameDone_iff s).mp h
  rw [State.closed, if_neg hdone, clearWall_eq]

theorem wallInt_closed (s : State) : s.closed.wallInt = s.clearWall.wallInt := by
  by_cases h : FrameEnded s
  · rw [closed_of_done h]
  · rw [closed_of_not_done h]

theorem wallInt_clearWall {s : State} (h : s.cfg.intSource = .wallclock) (m : ModuleId) :
    s.clearWall.wallInt.get m = if m = s.cur then false else s.wallInt.get m := by
  rw [State.clearWall, h]
  exact get_set _ _ _ _

theorem completeFrame_active {s : State} {m : ModuleId} (h : isActive s.cfg m = true) :
    s.completeFrame.mods.get m = { s.mods.get m with t := wrapCounter s.cfg (s.mods.get m).t } := by
  rw [State.completeFrame, Quad.get_mapId, if_pos h]

theorem completeFrame_inactive {s : State} {m : ModuleId} (h : isActive s.cfg m = false) :
    s.completeFrame.mods.get m = s.mods.get m := by
  rw [State.completeFrame, Quad.get_mapId, if_neg (Bool.eq_false_iff.mp h)]

/-- The end of a board step changes no module but in its counter, and no inactive one. -/
theorem mods_closed (s : State) (m : ModuleId) :
    s.closed.mods.get m = { s.mods.get m with t := (s.closed.mods.get m).t } ∧
    (isActive s.cfg m = false → s.closed.mods.get m = s.mods.get m) := by
  by_cases hdone : FrameEnded s
  · have hmods : s.closed.mods = s.completeFrame.mods := by rw [closed_of_done hdone]
    rw [hmods]
    cases h : isActive s.cfg m with
    | true => exact ⟨by rw [completeFrame_active h], nofun⟩
    | false => exact ⟨by rw [completeFrame_inactive h], fun _ => completeFrame_inactive h⟩
  · rw [closed_of_not_done hdone]
    exact ⟨rfl, fun _ => rfl⟩

theorem closed_kept (s : State) : s.closed = { s with
    wallInt := s.closed.wallInt, mods := s.closed.mods, frameNo := s.closed.frameNo
    frameStartPending := s.closed.frameStartPending } := by
  by_cases h : FrameEnded s
  · rw [closed_of_done h]; rfl
  · rw [closed_of_not_done h]

/-- Settles O29: each part is a rule of `intLevel`, `opened` or `closed`. -/
theorem frameWork : Obligations.FrameWork := by
  refine ⟨fun s m h => intLevel_tstate h m, fun s m h => intLevel_wallclock h m, fun s h => ?started, fun s h => ?going,
    fun s => ⟨cur_opened s, rfl, ?mods, ?frame⟩,
    fun s => ⟨fun h m => ?wall, fun h => ?noWall, mods_closed s, closed_kept s⟩, fun s hdone => ?done,
    fun s m hactive hm => ?notDone⟩
  case started => rw [opened_of_pending h]; exact ⟨rfl, rfl, rfl, rfl⟩
  case going => rw [opened_of_started h]; exact ⟨rfl, rfl, rfl, h⟩
  case mods =>
    cases h : s.frameStartPending with
    | true => rw [opened_of_pending h]
    | false => rw [opened_of_started h]
  case frame =>
    cases h : s.frameStartPending with
    | true => rw [opened_of_pending h]
    | false => rw [opened_of_started h]
  case wall => rw [wallInt_closed, wallInt_clearWall h]
  case noWall => rw [wallInt_closed, clearWall_tstate h]
  case done =>
    rw [closed_of_done hdone]
    exact ⟨rfl, rfl, fun m hm => congrArg Module.t (completeFrame_active hm)⟩
  case notDone =>
    rw [closed_of_not_done fun hdone => Nat.not_le.mpr hm (hdone m hactive)]
    exact ⟨rfl, rfl, rfl⟩

/-! ### Host inputs (R491) and the NMI edge (R438) -/

theorem getElem_setKey (rows : KeyMatrix) (row : Fin 8) (key : Fin 5) (up : Bool) (k : Fin 8) (b : Fin 5) :
    ((setKey rows row key up)[k]).getLsbD b.val = if k = row ∧ b = key then up else (rows[k]).getLsbD b.val := by
  have hrow : (setKey rows row key up)[k] = if row.val = k.val then
      (if up then rows[row] ||| 1#5 <<< key.val else rows[row] &&& ~~~(1#5 <<< key.val)) else rows[k] :=
    Vector.getElem_set row.isLt k.isLt
  rw [hrow]
  by_cases hk : row.val = k.val
  · obtain rfl := Fin.ext hk
    have hkey : row = row ∧ b = key ↔ b.val = key.val := by simp [Fin.ext_iff]
    rw [if_pos hk, ite_congr (propext hkey) (fun _ => rfl) (fun _ => rfl)]
    cases up with
    | true => exact getLsbD_or_one_shiftLeft _ _ b.isLt
    | false => exact getLsbD_and_not_one_shiftLeft _ _ b.isLt
  · rw [if_neg hk, if_neg fun h => hk (congrArg Fin.val h.1.symm)]

theorem getLsbD_setLine (joy : Byte) (line : Fin 5) (on : Bool) (n : Fin 8) :
    (setLine joy line on).getLsbD n.val = if n.val = line.val then on else joy.getLsbD n.val := by
  cases on with
  | true => exact getLsbD_or_one_shiftLeft joy _ n.isLt
  | false => exact getLsbD_and_not_one_shiftLeft joy _ n.isLt

theorem retiSeen_clearReti (s : State) (m n : ModuleId) : ((s.deliver (.clearReti m)).mods.get n).retiSeen =
    if n = m then false else (s.mods.get n).retiSeen := by
  have hget : (s.deliver (.clearReti m)).mods.get n =
      if n = m then { s.mods.get m with retiSeen := false } else s.mods.get n := get_set _ _ _ _
  rw [hget]
  split <;> rfl

/-- Clearing a module's `reti_seen` changes no other part of any module. -/
theorem mods_clearReti (s : State) (m n : ModuleId) : (s.deliver (.clearReti m)).mods.get n =
    { s.mods.get n with retiSeen := ((s.deliver (.clearReti m)).mods.get n).retiSeen } := by
  have hget : (s.deliver (.clearReti m)).mods.get n =
      if n = m then { s.mods.get m with retiSeen := false } else s.mods.get n := get_set _ _ _ _
  rw [hget]
  split
  · next h => rw [h]
  · rfl

theorem takeInputs_nil {s : State} (h : s.hostInputs = []) : s.takeInputs = s := by
  rw [State.takeInputs, h]

theorem takeInputs_cons {s : State} {batch : List HostEvent} {later : List (List HostEvent)}
    (h : s.hostInputs = batch :: later) : s.takeInputs = batch.foldl State.deliver { s with hostInputs := later } := by
  rw [State.takeInputs, h]

/-- Settles O30: the keys and lines bit by bit, the rest by one equation for each event. -/
theorem hostInputsAndNmiEdge : Obligations.HostInputsAndNmiEdge := by
  refine ⟨fun s k k' b b' => ⟨getElem_setKey s.keysLive k b false k' b', getElem_setKey s.keysLive k b true k' b'⟩,
    fun s b n => ⟨getLsbD_setLine s.joyLive b true n, getLsbD_setLine s.joyLive b false n⟩,
    fun s m => ⟨Quad.get_mapId _ _ m, rfl, fun n => retiSeen_clearReti s m n, fun _ => ⟨rfl, rfl⟩⟩,
    fun s => ⟨takeInputs_nil, fun later h => takeInputs_cons h, fun batch e later h => ?batch⟩,
    fun s => ⟨fun _ _ => ⟨rfl, rfl⟩, fun _ => ⟨rfl, rfl⟩, fun _ => ⟨rfl, rfl⟩, rfl, rfl,
      fun m => ⟨rfl, fun n => mods_clearReti s m n⟩, rfl⟩,
    fun s m => ⟨detectNmi_active, detectNmi_inactive⟩⟩
  case batch =>
    rw [takeInputs_cons h, List.foldl_append]
    rfl

/-! ### What a port read gives (R484, R486, R489, R490) -/

theorem kempstonAnswers_classic {g : Config} (h : g.boardMode = .classic) (m : ModuleId) (port : Word) :
    kempstonAnswers g m port = true ↔ port.toNat % 256 = 0x1F := by
  have hlo : (loByte port).toNat = port.toNat % 256 := by rw [loByte_eq_ofNat, BitVec.toNat_ofNat]
  rw [kempstonAnswers, h, ← hlo, beq_iff_eq]
  exact BitVec.toNat_inj.symm

theorem getLsbD_keyboardByte (rows : KeyMatrix) (tape : Bool) (port : Word) :
    (∀ b : Fin 5, (keyboardByte rows tape port).getLsbD b.val = (selectedRows rows port).getLsbD b.val) ∧
    (keyboardByte rows tape port).getLsbD 5 = true ∧ (keyboardByte rows tape port).getLsbD 6 = tape ∧
    (keyboardByte rows tape port).getLsbD 7 = true := by
  unfold keyboardByte
  generalize selectedRows rows port = keys
  decide +revert

theorem or_iff_exists_fin (p : Fin 8 → Prop) :
    (((((((p 0 ∨ p 1) ∨ p 2) ∨ p 3) ∨ p 4) ∨ p 5) ∨ p 6) ∨ p 7) ↔ ∃ k, p k := by
  simp [Fin.exists_fin_succ, or_assoc]

theorem getLsbD_selectedRows (rows : KeyMatrix) (port : Word) (b : Fin 5) :
    (selectedRows rows port).getLsbD b.val = false ↔
      ∃ k : Fin 8, port.getLsbD (8 + k.val) = false ∧ (rows[k]).getLsbD b.val = false := by
  have hones : (0x1F#5).getLsbD b.val = true := by decide +revert
  have hpick (k : Fin 8) : (if port.getLsbD (8 + k.val) then 0x1F else rows[k] : BitVec 5).getLsbD b.val = false ↔
      port.getLsbD (8 + k.val) = false ∧ (rows[k]).getLsbD b.val = false := by
    cases port.getLsbD (8 + k.val) <;> simp [hones]
  simp only [selectedRows, BitVec.getLsbD_and, Bool.and_eq_false_iff, hpick]
  exact or_iff_exists_fin fun k : Fin 8 => port.getLsbD (8 + k.val) = false ∧ (rows[k]).getLsbD b.val = false

/-- The answer is that of the first external device that gives one (R484, R486). -/
theorem externalAnswer_spec (n k : Nat) :
    (∃ j, j < n ∧ Config.freeAnswer (k + j) = externalAnswer n k ∧ (externalAnswer n k).isSome = true ∧
      ∀ i, i < j → Config.freeAnswer (k + i) = none) ∨
    (externalAnswer n k = none ∧ ∀ i, i < n → Config.freeAnswer (k + i) = none) := by
  induction n generalizing k with
  | zero => exact .inr ⟨rfl, nofun⟩
  | succ n ih =>
    cases hk : Config.freeAnswer k with
    | some v =>
      have hans : externalAnswer (n + 1) k = some v := by rw [externalAnswer, hk]
      exact .inl ⟨0, Nat.succ_pos n, hk.trans hans.symm, by rw [hans]; rfl, nofun⟩
    | none =>
      have hans : externalAnswer (n + 1) k = externalAnswer n (k + 1) := by rw [externalAnswer, hk]
      have hshift (i : Nat) : k + 1 + i = k + (i + 1) := by omega
      have hnone {j : Nat} (hbefore : ∀ i, i < j → Config.freeAnswer (k + 1 + i) = none) (i : Nat) (hi : i < j + 1) :
          Config.freeAnswer (k + i) = none := by
        cases i with
        | zero => exact hk
        | succ i => exact hshift i ▸ hbefore i (Nat.lt_of_succ_lt_succ hi)
      rw [hans]
      obtain ⟨j, hj, hfree, hsome, hbefore⟩ | ⟨hnoAnswer, hbefore⟩ := ih (k + 1)
      · exact .inl ⟨j + 1, Nat.succ_lt_succ hj, hshift j ▸ hfree, hsome, hnone hbefore⟩
      · exact .inr ⟨hnoAnswer, hnone hbefore⟩

theorem portValue_of_filtered {s : State} {port : Word} (h : ioFilter s.cfg s.cur port .read = false) :
    s.portValue port = s.cfg.openBus := if_neg (Bool.eq_false_iff.mp h)

section
variable {s : State} {port : Word} (h : ioFilter s.cfg s.cur port .read = true)
include h

theorem portValue_even (heven : port.toNat % 2 = 0) : s.portValue port = keyboardByte s.keysVisible s.tapeIn port := by
  rw [State.portValue, if_pos h, State.keyboardRead, if_pos ((getLsbD_zero_eq_false_iff port).mpr heven)]

theorem portValue_odd (hodd : port.toNat % 2 = 1) : s.portValue port =
    if kempstonAnswers s.cfg s.cur port = true then s.joyVisible
    else (externalAnswer s.cfg.externals.length s.draws).getD s.cfg.openBus := by
  have hbit : ¬ port.getLsbD 0 = false := by rw [getLsbD_zero_eq_false_iff]; omega
  rw [State.portValue, if_pos h, State.keyboardRead, if_neg hbit]
  cases kempstonAnswers s.cfg s.cur port <;> rfl

end

/-- Settles O31: an even port is the keyboard's, an odd one the joystick's or an external device's. -/
theorem portReads : Obligations.PortReads := by
  refine fun s port => ⟨⟨_, rfl⟩, fun h => kempstonAnswers_classic h s.cur port, portValue_of_filtered,
    fun h => ⟨fun heven => ?even, fun hodd hkempston => ?joystick, fun hodd hno => ?external⟩⟩
  case even =>
    obtain ⟨hkeys, h5, htape, h7⟩ := getLsbD_keyboardByte s.keysVisible s.tapeIn port
    rw [portValue_even h heven]
    exact ⟨fun b => by rw [hkeys, getLsbD_selectedRows], h5, htape, h7⟩
  case joystick => rw [portValue_odd h hodd, if_pos hkempston]
  case external =>
    have hvalue := portValue_odd h hodd
    rw [if_neg (Bool.eq_false_iff.mp hno)] at hvalue
    obtain ⟨n, hn, hfree, hsome, hbefore⟩ | ⟨hnone, hall⟩ := externalAnswer_spec s.cfg.externals.length s.draws
    · obtain ⟨v, hv⟩ := Option.isSome_iff_exists.mp hsome
      rw [hv] at hfree hvalue
      exact .inl ⟨n, hn, hfree.trans (congrArg some hvalue.symm), hbefore⟩
    · rw [hnone] at hvalue
      exact .inr ⟨hvalue, hall⟩

end Sys2Proof.Machine
end

section
/-!
What no instruction changes of the board around the stepping module (O13).
-/

namespace Sys2Proof.Machine

theorem memorySound_writeByte {s : State} (h : s.memorySound = true) (a : Word) (v : Byte) :
    (s.writeByte a v).memorySound = true := by
  simp only [State.memorySound, Bool.and_eq_true, State.writeByte_cfg, State.writeByte_rom] at h ⊢
  obtain ⟨⟨⟨⟨hfits, hwf⟩, hbelow⟩, hrom⟩, hromBelow⟩ := h
  exact ⟨⟨⟨⟨hfits, State.heap_wf_writeByte hwf a v⟩, State.heap_below_writeByte hfits hbelow a v⟩, hrom⟩, hromBelow⟩

theorem borderLine_length_portWrite (s : State) (port : Word) (v : Byte) (tw : Nat) :
    (s.portWrite port v tw).borderLine.length = s.borderLine.length := by
  obtain ⟨-, hline, -⟩ := border_bankSelect s port v
  unfold State.portWrite State.borderWrite
  split
  · split
    · exact (fillFrom_length _ _ _).trans (congrArg _ hline)
    · exact congrArg _ hline
  · exact congrArg _ hline

/-- `t` is `s` but for the stepping module, RAM within its banks, the colours of the border and the free values taken
(R30, R457). -/
structure Confined (s t : State) : Prop where
  others : ∀ m, m ≠ s.cur → t.mods.get m = s.mods.get m
  frame : t = { s with
    mods := t.mods, heap := t.heap, borderCur := t.borderCur, borderLine := t.borderLine, draws := t.draws }
  memory : s.memorySound = true → t.memorySound = true
  border : t.borderLine.length = s.borderLine.length

namespace Confined

variable {s s1 t : State}

@[simp] theorem refl (s : State) : Confined s s := ⟨fun _ _ => rfl, rfl, id, rfl⟩

theorem cur (h : Confined s t) : t.cur = s.cur := by rw [h.frame]

theorem cfg (h : Confined s t) : t.cfg = s.cfg := by rw [h.frame]

theorem rom (h : Confined s t) : t.rom = s.rom := by rw [h.frame]

theorem trans (h : Confined s s1) (h' : Confined s1 t) : Confined s t where
  others m hm := (h'.others m (h.cur ▸ hm)).trans (h.others m hm)
  frame := h'.frame.trans (congrArg (fun u : State => { u with
    mods := t.mods, heap := t.heap, borderCur := t.borderCur, borderLine := t.borderLine, draws := t.draws }) h.frame)
  memory hs := h'.memory (h.memory hs)
  border := h'.border.trans h.border

/-! ### What keeps to it, one operation after another -/

@[simp] theorem setCore (h : Confined s s1) (c : Module) : Confined s (s1.setCore c) :=
  h.trans ⟨fun _ hm => State.get_setCore_of_ne s1 c hm, rfl, id, rfl⟩

@[simp] theorem mapCore (h : Confined s s1) (f : Module → Module) : Confined s (s1.mapCore f) := h.setCore _

@[simp] theorem drew (h : Confined s s1) (n : Nat) : Confined s (s1.drew n) :=
  h.trans ⟨fun _ _ => rfl, rfl, id, rfl⟩

@[simp] theorem writeByte (h : Confined s s1) (a : Word) (v : Byte) : Confined s (s1.writeByte a v) := by
  refine h.trans ⟨fun m _ => by rw [State.writeByte_mods], ?_, fun hs => memorySound_writeByte hs a v,
    by rw [State.writeByte_borderLine]⟩
  conv => lhs; rw [State.writeByte_eq]
  simp

@[simp] theorem writeWord (h : Confined s s1) (a v : Word) : Confined s (s1.writeWord a v) :=
  (h.writeByte _ _).writeByte _ _

@[simp] theorem push (h : Confined s s1) (v : Word) : Confined s (s1.push v) := by
  rw [State.push_eq]
  exact ((h.writeByte _ _).writeByte _ _).setCore _

@[simp] theorem portWrite (h : Confined s s1) (port : Word) (v : Byte) (tw : Nat) :
    Confined s (s1.portWrite port v tw) := by
  refine h.trans ⟨fun m hm => ?others, ?frame, fun hs => ?memory, borderLine_length_portWrite s1 port v tw⟩
  case others => rw [State.portWrite_frame]; exact State.get_setCore_of_ne s1 _ hm
  case frame => rw [State.portWrite_frame]; rfl
  case memory => rw [State.portWrite_frame]; exact hs

end Confined

/-- A next state, if there is one, is confined. -/
def AnswersConfined (s : State) (r : Result) : Prop := ∀ t, r = .next t → Confined s t

section
variable {s s1 : State}

theorem answersConfined_setCore {c : Module} (h : Confined s s1) : AnswersConfined s (.next (s1.setCore c)) := by
  rintro _ ⟨⟩
  exact h.setCore c

theorem answersConfined_ite {p : Prop} [Decidable p] {r r' : Result} (h : AnswersConfined s r)
    (h' : AnswersConfined s r') : AnswersConfined s (if p then r else r') := by
  split <;> assumption

theorem answersConfined_blockIoEnd (h : Confined s s1) (repeats : Bool) (fl : Byte) :
    AnswersConfined s (blockIoEnd repeats fl s1) := by
  unfold blockIoEnd
  refine answersConfined_ite ?_ (answersConfined_setCore h)
  split
  · exact answersConfined_setCore h
  · exact answersConfined_setCore (h.drew 1)

end

theorem confined_transferOnce (step : Word) (s : State) : Confined s (transferOnce step s) := by
  unfold transferOnce
  exact ((Confined.refl s).writeByte _ _).mapCore _

theorem answersConfined_transferRepeat (step : Word) (s : State) : AnswersConfined s (transferRepeat step s) :=
  answersConfined_ite (answersConfined_setCore (confined_transferOnce step s))
    (answersConfined_setCore (confined_transferOnce step s))

theorem answersConfined_inBlock (step : Word) (cStep : Byte) (rep : Bool) (s : State) :
    AnswersConfined s (inBlock step cStep rep s) :=
  answersConfined_blockIoEnd (((((Confined.refl s).drew _).mapCore _).writeByte _ _).mapCore _) _ _

theorem answersConfined_outBlock (step : Word) (rep : Bool) (s : State) : AnswersConfined s (outBlock step rep s) :=
  answersConfined_blockIoEnd ((((Confined.refl s).mapCore _).portWrite _ _ _).mapCore _) _ _

/-- The cases go by how the step ends: as a condition says, with a block iteration, or in the one way of all others; a delay
form is its instruction. -/
theorem exec_answersConfined {i : Instr} (hlone : i.isLonePrefix = false) (s : State) :
    AnswersConfined s (exec i s) := by
  induction i generalizing s with
  | prefixCb | prefixDd | prefixEd | prefixFd | prefixDdCb | prefixFdCb => cases hlone
  | ddFd x op ih =>
    intro t ht
    obtain ⟨hun, -⟩ := endsBy_of_ddFd ht
    obtain ⟨-, hlone, -⟩ := whole_of_unaffected hun
    rw [exec_ddFd x hun] at ht
    exact ((Confined.refl s).mapCore _).trans (ih hlone _ t ht)
  | jrCc | jpCcNn | djnz | callCcNn | retCc | cpir | cpdr =>
    exact answersConfined_ite (answersConfined_setCore (by simp)) (answersConfined_setCore (by simp))
  | ini => exact answersConfined_inBlock 1 1 false s
  | ind => exact answersConfined_inBlock (-1) (-1) false s
  | outi => exact answersConfined_outBlock 1 false s
  | outd => exact answersConfined_outBlock (-1) false s
  | inir | indr => exact answersConfined_inBlock _ _ true s
  | otir | otdr => exact answersConfined_outBlock _ true s
  | ldir | lddr => exact answersConfined_transferRepeat _ s
  | _ =>
    exact answersConfined_setCore
      (by simp [State.popped, State.leaveHandler, confined_transferOnce, State.portReadDone])

end Sys2Proof.Machine
end

section
/-!
What an instruction changes of its own module beside the ordinary registers (O12, O15).
-/

namespace Sys2Proof

/-- The instructions that the rules let write the registers and hidden bits of O12. -/
def Instr.writesSpecial : Instr → Bool
  | .exAfAf | .exx | .ldIA | .ldRA | .im0 _ | .im1 _ | .im2 _ | .ei | .di | .retn _ | .reti | .halt => true
  | _ => false

namespace Machine

/-- The module with nothing left but the shadow registers, I, R, the flip-flops, IM, `halted`, `reti_seen`, the NMI latch and
the TR-DOS flag. -/
def Module.specials (c : Module) : Module :=
  { Module.zero with
    a' := c.a', f' := c.f', b' := c.b', c' := c.c', d' := c.d', e' := c.e', h' := c.h', l' := c.l'
    i := c.i, r := c.r, iff1 := c.iff1, iff2 := c.iff2, im := c.im, halted := c.halted
    nmiPending := c.nmiPending, nmiPrev := c.nmiPrev, retiSeen := c.retiSeen, trdos := c.trdos }

/-- The latch of the stepping module is locked, or the map has no paging (R94, R95). -/
def LatchFixed (s : State) : Prop := s.core.port7FFD.getLsbD 5 = true ∨ s.cfg.machineMap ≠ .spectrum128

/-- `i` leaves the special registers of the stepping module alone unless it is one that writes them, and a fixed latch. -/
structure KeepsCore (i : Instr) (s : State) (c : Module) : Prop where
  specials : i.writesSpecial = false → c.specials = s.core.specials
  latch : LatchFixed s → c.port7FFD = s.core.port7FFD

theorem KeepsCore.of_writesSpecial {i : Instr} {s : State} {c : Module} (h : i.writesSpecial = true)
    (hlatch : c.port7FFD = s.core.port7FFD) : KeepsCore i s c :=
  ⟨fun hno => absurd (hno.symm.trans h) Bool.false_ne_true, fun _ => hlatch⟩

/-- A next state, if there is one, is as `i` may leave it. -/
def AnswersKept (i : Instr) (s : State) (r : Result) : Prop := ∀ t, r = .next t → KeepsCore i s t.core

section
variable {i : Instr} {s s1 : State} {c : Module}

theorem answersKept_setCore (h : KeepsCore i s c) : AnswersKept i s (.next (s1.setCore c)) := by
  rintro _ ⟨⟩
  rwa [State.core_setCore]

theorem answersKept_ended (h : KeepsCore i s c) (n : Nat) (q : Byte) :
    AnswersKept i s (.next (s1.setCore ((c.spend n).endStep q))) :=
  answersKept_setCore ⟨h.specials, h.latch⟩

theorem answersKept_ite {p : Prop} [Decidable p] {r r' : Result} (h : AnswersKept i s r)
    (h' : AnswersKept i s r') : AnswersKept i s (if p then r else r') := by
  split <;> assumption

theorem answersKept_blockIoEnd (h : KeepsCore i s s1.core) (repeats : Bool) (fl : Byte) :
    AnswersKept i s (blockIoEnd repeats fl s1) := by
  have hpc (pc : Word) (f : Byte) : KeepsCore i s { s1.core with pc := pc, f := f } := ⟨h.specials, h.latch⟩
  unfold blockIoEnd
  refine answersKept_ite ?_ (answersKept_ended (hpc _ _) _ _)
  split <;> exact answersKept_ended (hpc _ _) _ _

/-- A port write changes the latch, and not a fixed one (R93, R94). -/
theorem port7FFD_portWrite_of_fixed (h : LatchFixed s) (port : Word) (v : Byte) (tw : Nat) :
    (s.portWrite port v tw).core.port7FFD = s.core.port7FFD := by
  rw [core_portWrite, port7FFD_bankSelect, if_neg]
  rintro ⟨hselect, hopen⟩
  obtain ⟨hmap, -⟩ := (isBankSelect_iff _ _).mp hselect
  obtain hlocked | hno := h
  · exact absurd (hopen.symm.trans hlocked) Bool.false_ne_true
  · exact hno hmap

theorem keepsCore_portWrite (i : Instr) (s : State) (port : Word) (v : Byte) (tw : Nat) :
    KeepsCore i s (s.portWrite port v tw).core :=
  ⟨fun _ => by rw [core_portWrite_latch]; rfl, fun h => port7FFD_portWrite_of_fixed h port v tw⟩

theorem answersKept_inBlock (step : Word) (cStep : Byte) (rep : Bool) : AnswersKept i s (inBlock step cStep rep s) := by
  rw [inBlock_eq]
  refine answersKept_blockIoEnd ?_ _ _
  rw [blockInputState, State.core_setCore]
  exact ⟨fun _ => rfl, fun _ => rfl⟩

theorem answersKept_outBlock (step : Word) (rep : Bool) : AnswersKept i s (outBlock step rep s) := by
  rw [outBlock_eq]
  refine answersKept_blockIoEnd ?_ _ _
  rw [blockOutputState, State.core_setCore]
  exact ⟨fun _ => rfl, fun h => port7FFD_portWrite_of_fixed h _ _ _⟩

theorem answersKept_portWrite (port mp : Word) (v : Byte) (tw n : Nat) :
    AnswersKept i s ((s.portWrite port v tw).done n { (s.portWrite port v tw).core with memptr := mp }) := by
  obtain ⟨hspecials, hlatch⟩ := keepsCore_portWrite i s port v tw
  exact answersKept_ended (c := { (s.portWrite port v tw).core with memptr := mp }) ⟨hspecials, hlatch⟩ _ _

theorem keepsCore_repeatBlock (h : KeepsCore i s c) (k : BlockRepeatXy) : KeepsCore i s (repeatBlock k c) := by
  rw [repeatBlock_eq]
  exact ⟨h.specials, h.latch⟩

theorem keepsCore_transferOnce (i : Instr) (step : Word) (s : State) : KeepsCore i s (transferOnce step s).core := by
  rw [core_transferOnce]
  exact ⟨fun _ => rfl, fun _ => rfl⟩

theorem answersKept_transferRepeat (step : Word) : AnswersKept i s (transferRepeat step s) :=
  answersKept_ite (answersKept_ended (keepsCore_repeatBlock (keepsCore_transferOnce i step s) _) _ _)
    (answersKept_ended (keepsCore_transferOnce i step s) _ _)

theorem keepsCore_searchOnce (i : Instr) (step : Word) (v : Byte) (s : State) :
    KeepsCore i s (searchOnce step v s.core) := ⟨fun _ => rfl, fun _ => rfl⟩

theorem answersKept_searchRepeat (step : Word) : AnswersKept i s (searchRepeat step s) :=
  answersKept_ite (answersKept_ended (keepsCore_repeatBlock (keepsCore_searchOnce i step _ s) _) _ _)
    (answersKept_ended (keepsCore_searchOnce i step _ s) _ _)

end

/-- The cases go by what the step writes beside ordinary registers: special registers, a mark, a port with its latch; then by
how it ends: as a condition says, with a block iteration, or in the one way of all others. -/
theorem exec_answersKept {i : Instr} (hlone : i.isLonePrefix = false) (hdelay : ∀ x op, i ≠ .ddFd x op) (s : State) :
    AnswersKept i s (exec i s) := by
  cases i with
  | prefixCb | prefixDd | prefixEd | prefixFd | prefixDdCb | prefixFdCb => cases hlone
  | ddFd x op => exact absurd rfl (hdelay x op)
  | exAfAf | exx | ldIA | ldRA | im0 | im1 | im2 | ei | di | retn | reti | halt =>
    exact answersKept_setCore (.of_writesSpecial rfl (by simp [State.leaveHandler, State.popped]))
  | ignoredPrefix | ldAI | ldAR => exact answersKept_setCore ⟨fun _ => by rfl, fun _ => by rfl⟩
  | jrCc | jpCcNn | djnz | callCcNn | retCc =>
    exact answersKept_ite
      (answersKept_ended ⟨fun _ => by simp [Module.specials, relativeJump, State.popped],
        fun _ => by simp [relativeJump, State.popped]⟩ _ _)
      (answersKept_ended ⟨fun _ => by rfl, fun _ => by rfl⟩ _ _)
  | outNA | outCR | outC0 => exact answersKept_portWrite _ _ _ _ _
  | ini => exact answersKept_inBlock 1 1 false
  | ind => exact answersKept_inBlock (-1) (-1) false
  | outi => exact answersKept_outBlock 1 false
  | outd => exact answersKept_outBlock (-1) false
  | inir | indr => exact answersKept_inBlock _ _ true
  | otir | otdr => exact answersKept_outBlock _ true
  | ldir | lddr => exact answersKept_transferRepeat _
  | cpir | cpdr => exact answersKept_searchRepeat _
  | ldi | ldd => exact answersKept_ended (keepsCore_transferOnce _ _ s) _ _
  | cpi | cpd => exact answersKept_ended (keepsCore_searchOnce _ _ _ s) _ _
  | _ =>
    exact answersKept_ended ⟨fun _ => by simp [Module.specials, relativeJump, State.popped, copyTo],
      fun _ => by simp [relativeJump, State.popped, copyTo]⟩ _ _

end Machine
end Sys2Proof
end

section
/-!
What every instruction leaves alone, the lone prefixes and the delay forms with the others (O12, O13, O15).
-/

namespace Sys2Proof.Machine

/-! ### The fetch -/

/-- A fetch is confined, and changes no latch (R16, R98). -/
structure Fetched (s s' : State) : Prop where
  confined : Confined s s'
  latch : s'.core.port7FFD = s.core.port7FFD

namespace Fetched

variable {s s' : State}

theorem refl (s : State) : Fetched s s := ⟨.refl s, rfl⟩

theorem trans {s s1 s2 : State} (h : Fetched s s1) (h' : Fetched s1 s2) : Fetched s s2 :=
  ⟨h.confined.trans h'.confined, h'.latch.trans h.latch⟩

theorem afterOpcode (s : State) : Fetched s s.afterOpcode := by
  rw [afterOpcode_eq]
  exact ⟨((Confined.refl s).drew _).mapCore _, by rw [fetchedOne, State.core_mapCore]; rfl⟩

theorem fetchOperands {pre : List Byte} {i : Instr} (h : s.fetchOperands pre = some (i, s')) : Fetched s s' := by
  unfold State.fetchOperands at h
  split at h
  · cases h
    exact ⟨(Confined.refl s).mapCore _, by rw [State.core_mapCore]⟩
  · cases h

theorem fetchAfter {b0 : Byte} {i : Instr} (h : s.fetchAfter b0 = some (i, s')) : Fetched s s' := by
  unfold State.fetchAfter at h
  split at h
  · exact (afterOpcode s).trans (fetchOperands h)
  split at h
  · cases h; exact refl s
  split at h
  · cases h; exact refl s
  · exact fetchOperands h

theorem fetch {i : Instr} (h : s.fetch = some (i, s')) : Fetched s s' := (afterOpcode s).trans (fetchAfter h)

theorem latchFixed (h : Fetched s s') (hfixed : LatchFixed s) : LatchFixed s' := by
  unfold LatchFixed
  rwa [h.latch, h.confined.cfg]

end Fetched

/-- What a byte that stands alone goes on to run is another instruction, fetched (R132). -/
theorem exec_lone_fetched {i : Instr} (hi : i.isLonePrefix = true) (s : State) :
    ∃ j s', exec i s = exec j s' ∧ j.isLonePrefix = false ∧ Fetched s s' := by
  obtain ⟨b0, hb0, -, hexec⟩ | ⟨x, -, hexec⟩ := lonePrefix_cases hi <;> rw [hexec]
  · obtain ⟨j, s', hfetch, -, hlone⟩ := fetchesWhole_fetchAfter s hb0
    exact ⟨j, s', runNext_eq_exec hfetch hlone, hlone, .fetchAfter hfetch⟩
  · obtain ⟨j, s', hfetch, -, hlone⟩ := fetchesWhole_fetchOperands s x.prefixByte 0xCB
    exact ⟨j, s', runNext_eq_exec hfetch hlone, hlone, .fetchOperands hfetch⟩

/-- An instruction, or for a byte that stands alone the one it goes on to run, on the state it runs on. -/
theorem exec_fetched (i : Instr) (s : State) : ∃ j s', exec i s = exec j s' ∧ j.isLonePrefix = false ∧ Fetched s s' := by
  cases hlone : i.isLonePrefix with
  | true => exact exec_lone_fetched hlone s
  | false => exact ⟨i, s, rfl, hlone, .refl s⟩

/-! ### Isolation (R30, R457) -/

theorem exec_confined {i : Instr} {s t : State} (ht : exec i s = .next t) : Confined s t := by
  obtain ⟨j, s', hexec, hlone, hfetched⟩ := exec_fetched i s
  exact hfetched.confined.trans (exec_answersConfined hlone s' t (hexec.symm.trans ht))

/-- Settles O13: whatever an instruction does is confined to its module, RAM, the border and the free values taken. -/
theorem modulesIsolated : Obligations.ModulesIsolated := by
  intro i s t ht
  have hconfined := exec_confined ht
  exact ⟨hconfined.others, hconfined.frame⟩

/-! ### The latch (R61, R94) -/

/-- A delay form that answers is its instruction on a module 4 T-states later; any other instruction is itself. -/
theorem exec_bare {i : Instr} {s t : State} (hlone : i.isLonePrefix = false) (ht : exec i s = .next t) :
    ((∀ x op, i ≠ .ddFd x op) ∧ KeepsCore i s t.core) ∨
    (∃ x op, i = .ddFd x op ∧ op.unaffected = true ∧ KeepsCore op (s.mapCore (·.spend 4)) t.core) := by
  by_cases hdelay : ∃ x op, i = .ddFd x op
  · obtain ⟨x, op, rfl⟩ := hdelay
    obtain ⟨hun, -⟩ := endsBy_of_ddFd ht
    obtain ⟨-, hlone, -⟩ := whole_of_unaffected hun
    rw [exec_ddFd x hun] at ht
    exact .inr ⟨x, op, rfl, hun, exec_answersKept hlone (fun x' op' h => by subst h; cases hun) _ t ht⟩
  · have hdelay (x : IdxReg) (op : Instr) : i ≠ .ddFd x op := fun h => hdelay ⟨x, op, h⟩
    exact .inl ⟨hdelay, exec_answersKept hlone hdelay s t ht⟩

theorem latch_of_next {i : Instr} {s t : State} (hlone : i.isLonePrefix = false) (ht : exec i s = .next t)
    (hfixed : LatchFixed s) : t.core.port7FFD = s.core.port7FFD := by
  obtain ⟨-, hkeeps⟩ | ⟨x, op, -, -, hkeeps⟩ := exec_bare hlone ht
  · exact hkeeps.latch hfixed
  · have hspent : (s.mapCore (·.spend 4)).core.port7FFD = s.core.port7FFD := by rw [State.core_mapCore, Module.spend_port7FFD]
    rw [hkeeps.latch (by unfold LatchFixed; rwa [hspent]), hspent]

/-- Settles O15: no instruction but a port write touches the latch, and a port write keeps to the lock and the map. -/
theorem latchLocked : Obligations.LatchLocked := by
  intro i s t ht hfixed
  obtain ⟨j, s', hexec, hlone, hfetched⟩ := exec_fetched i s
  exact (latch_of_next hlone (hexec.symm.trans ht) (hfetched.latchFixed hfixed)).trans hfetched.latch

/-! ### The special registers (R32 to R38, R46, R49, R54, R56, R98) -/

/-- `c'` differs from `c` in those special registers at most that the rules let `i` write. -/
structure SpecialsBy (i : Instr) (c c' : Module) : Prop where
  af : i ≠ .exAfAf → c'.a' = c.a' ∧ c'.f' = c.f'
  shadow : i ≠ .exx → c'.b' = c.b' ∧ c'.c' = c.c' ∧ c'.d' = c.d' ∧ c'.e' = c.e' ∧ c'.h' = c.h' ∧ c'.l' = c.l'
  regI : i ≠ .ldIA → c'.i = c.i
  regR : i ≠ .ldRA → c'.r = c.r
  im : (∀ k, i ≠ .im0 k) → (∀ k, i ≠ .im1 k) → (∀ k, i ≠ .im2 k) → c'.im = c.im
  iff1 : i ≠ .ei → i ≠ .di → (∀ y, i ≠ .retn y) → i ≠ .reti → c'.iff1 = c.iff1
  iff2 : i ≠ .ei → i ≠ .di → c'.iff2 = c.iff2
  halted : i ≠ .halt → c'.halted = c.halted
  retiSeen : i ≠ .reti → c'.retiSeen = c.retiSeen
  nmiPending : c'.nmiPending = c.nmiPending
  nmiPrev : c'.nmiPrev = c.nmiPrev
  trdos : c'.trdos = c.trdos

theorem SpecialsBy.of_specials (i : Instr) {c c' : Module} (h : c'.specials = c.specials) : SpecialsBy i c c' := by
  simp only [Module.specials, Module.mk.injEq, true_and, and_true] at h
  obtain ⟨ha, hf, hb, hc, hd, he, hh, hl, hi, hr, hiff1, hiff2, him, hhalted, hpending, hprev, hreti, htrdos⟩ := h
  exact ⟨fun _ => ⟨ha, hf⟩, fun _ => ⟨hb, hc, hd, he, hh, hl⟩, fun _ => hi, fun _ => hr, fun _ _ _ => him,
    fun _ _ _ _ => hiff1, fun _ _ => hiff2, fun _ => hhalted, fun _ => hreti, hpending, hprev, htrdos⟩

/-- Each instruction that writes special registers writes its own only. -/
theorem specialsBy_of_writesSpecial {i : Instr} {s t : State} (h : i.writesSpecial = true) (ht : exec i s = .next t) :
    SpecialsBy i s.core t.core := by
  cases i with
  | exAfAf | exx | ldIA | ldRA | im0 | im1 | im2 | ei | di | halt =>
    cases ht
    rw [State.core_setCore]
    constructor <;> simp
  | retn y =>
    rw [exec_retn] at ht
    cases ht
    rw [State.core_setCore]
    constructor <;> simp [returned]
  | reti =>
    rw [exec_reti] at ht
    cases ht
    rw [State.core_setCore]
    constructor <;> simp [returned]
  | _ => cases h

theorem specialsBy_of_keepsCore {i : Instr} {s t : State} (ht : exec i s = .next t) (h : KeepsCore i s t.core) :
    SpecialsBy i s.core t.core := by
  cases hspecial : i.writesSpecial with
  | true => exact specialsBy_of_writesSpecial hspecial ht
  | false => exact .of_specials i (h.specials hspecial)

/-- Settles O12: an instruction writes no special register, or it is one of the few that do; inside a delay form too. -/
theorem specialRegistersKept : Obligations.SpecialRegistersKept := by
  intro i s t hlone ht
  obtain ⟨hdelay, hkeeps⟩ | ⟨x, op, rfl, hun, hkeeps⟩ := exec_bare hlone ht
  · have h := specialsBy_of_keepsCore ht hkeeps
    rw [bareInstr_of_ne_ddFd hdelay]
    exact ⟨h.af, h.shadow, h.regI, h.regR, h.im, h.iff1, h.iff2, h.halted, h.retiSeen, h.nmiPending, h.nmiPrev, h.trdos⟩
  · have h := specialsBy_of_keepsCore ((exec_ddFd x hun s).symm.trans ht) hkeeps
    rw [State.core_mapCore] at h
    have hno {j : Instr} (hj : j.unaffected = false) : op ≠ j := by
      rintro rfl
      exact Bool.false_ne_true (hj.symm.trans hun)
    exact ⟨h.af, h.shadow, fun _ => h.regI (hno rfl), fun _ => h.regR (hno rfl),
      fun _ _ _ => h.im (fun _ => hno rfl) (fun _ => hno rfl) (fun _ => hno rfl),
      fun hei hdi _ _ => h.iff1 hei hdi (fun _ => hno rfl) (hno rfl), h.iff2, h.halted, fun _ => h.retiSeen (hno rfl),
      h.nmiPending, h.nmiPrev, h.trdos⟩

end Sys2Proof.Machine
end

section
/-!
The jumps, the statement of 48_jump_call_return.md about them (O56).
-/

namespace Sys2Proof.Machine

theorem RegisterWrite.pc (w : Word) : RegisterWrite fun c => { c with pc := w } :=
  ⟨fun _ => rfl, fun _ => rfl, fun _ _ => rfl⟩

/-- The target of a relative jump, as a sum of signed numbers (R370). -/
theorem add_sext16 (pc : Word) (e : Byte) : pc + sext16 e = BitVec.ofInt 16 (pc.toInt + e.toInt) := by
  rw [BitVec.ofInt_add, BitVec.ofInt_toInt]
  rfl

/-- The module after a jump that sets MEMPTR too. -/
def jumped (target : Word) (c : Module) : Module := { c with pc := target, memptr := target }

theorem RegisterWrite.jumped (target : Word) : RegisterWrite (jumped target) := (RegisterWrite.memptr target).comp (.pc target)

theorem relativeJump_eq (e : Byte) (c : Module) : relativeJump e c = jumped (BitVec.ofInt 16 (c.pc.toInt + e.toInt)) c := by
  rw [← add_sext16]
  rfl

/-- DJNZ jumps unless it counts B down to 0 (R377). -/
theorem djnz_taken_iff (b : Byte) : (b - 1 != 0) = true ↔ b ≠ 1 := by
  rw [bne, sub_beq_zero, Bool.not_eq_true', beq_eq_false_iff_ne]

section
variable {i : Instr} {n : Nat} {s : State}

/-- A relative jump from a state that may have had a register written (R370). -/
theorem after_relativeJump (e : Byte) (g : Module → Module) (hg : RegisterWrite g) (hpc : (g s.core).pc = s.core.pc)
    (he : exec i s = s.done n (relativeJump e (g s.core))) :
    After i s n fun t => Quiet s t ∧
      t.core = jumped (BitVec.ofInt 16 (s.core.pc.toInt + e.toInt)) (g (s.core.stepped t.core)) :=
  after_registerWrite _ ((RegisterWrite.jumped _).comp hg) (by rw [he, relativeJump_eq, hpc])

end

/-- Settles O56: a jump writes PC, and MEMPTR where its rule says so; one not taken writes MEMPTR or B at most. -/
theorem jumps : Obligations.Jumps := by
  refine ⟨
    fun nn => ⟨?jpNn, fun s => after_registerWrite _ (.jumped nn) rfl⟩,
    fun cc nn => ⟨?jpCcNn, fun s => ⟨
      fun h => after_registerWrite _ (.jumped nn) (if_pos ((condHolds_iff cc _).mp h)),
      fun h => after_registerWrite _ (.memptr nn) (if_neg (mt (condHolds_iff cc _).mpr h))⟩⟩,
    fun e => ⟨?jr, fun s => after_relativeJump e _ .unchanged rfl rfl⟩,
    fun cc e => ⟨?jrCc, fun s => ⟨
      fun h => after_relativeJump e _ .unchanged rfl (if_pos ((condHolds_iff _ _).mp h)),
      fun h => after_registerWrite _ .unchanged (if_neg (mt (condHolds_iff _ _).mpr h))⟩⟩,
    ⟨?jpHl, fun s => after_registerWrite _ (.pc s.core.hl) rfl⟩,
    ⟨?jpIx, fun s => after_registerWrite _ (.pc s.core.ix) rfl⟩,
    ⟨?jpIy, fun s => after_registerWrite _ (.pc s.core.iy) rfl⟩,
    fun e => ⟨?djnz, fun s => ⟨
      fun h => after_relativeJump e _ (.setReg8 .b (s.core.b - 1)) rfl (if_pos ((djnz_taken_iff _).mpr h)),
      fun h => after_registerWrite _ (.setReg8 .b 0) ((if_neg (mt (djnz_taken_iff _).mp (not_not.mpr h))).trans ?zero)⟩⟩⟩
  case zero => rw [h]; rfl
  case jpNn => rw [← wordBytes_eq_lowHigh]; exact encoded_of_whole ⟨rfl, rfl, rfl⟩ rfl rfl
  case jpCcNn => rw [← wordBytes_eq_lowHigh]; cases cc <;> exact encoded_of_whole ⟨rfl, rfl, rfl⟩ rfl rfl
  case jrCc => cases cc <;> exact encoded_of_whole ⟨rfl, rfl, rfl⟩ rfl rfl
  case jr | jpHl | jpIx | jpIy | djnz => exact encoded_of_whole ⟨rfl, rfl, rfl⟩ rfl rfl

end Sys2Proof.Machine
end

section
/-!
What a step changes of the board, whatever its core step is (O7, O9, O14).
-/

namespace Sys2Proof.Machine

/-! ### Sound modules (R51, R52, R430) -/

theorem Module.sound_iff (c : Module) : c.sound = true ↔ (c.q = c.f ∨ c.q = 0) ∧
    (c.eiDelay = true → (c.iff1 = true ∧ c.iff2 = true) ∧ c.prefixBlock = false ∧ c.ldair = false) ∧
    (c.prefixBlock = true → c.ldair = false) := by
  simp only [Module.sound, Bool.and_eq_true, Bool.or_eq_true, beq_iff_eq, or_comm (a := c.q = 0), and_assoc]
  cases c.eiDelay <;> cases c.prefixBlock <;> cases c.ldair <;> simp

theorem Module.sound_endStep {c : Module} {q : Byte} (hq : q = c.f ∨ q = 0) : (c.endStep q).sound = true :=
  (Module.sound_iff _).mpr ⟨hq, nofun, nofun⟩

theorem bareInstr_eq_ei_iff (i : Instr) : bareInstr i = .ei ↔ i = .ei ∨ ∃ x, i = .ddFd x .ei := by
  by_cases hdelay : ∃ x op, i = .ddFd x op
  · obtain ⟨x, op, rfl⟩ := hdelay
    simp [bareInstr]
  · have hdelay (x : IdxReg) (op : Instr) : i ≠ .ddFd x op := fun h => hdelay ⟨x, op, h⟩
    rw [bareInstr_of_ne_ddFd hdelay]
    exact ⟨.inl, fun h => h.resolve_right fun ⟨x, hx⟩ => hdelay x _ hx⟩

/-- EI sets both flip-flops, in a delay form too (R278). -/
theorem iff_of_ei {i : Instr} {s t : State} (hi : bareInstr i = .ei) (ht : exec i s = .next t) :
    t.core.iff1 = true ∧ t.core.iff2 = true := by
  obtain rfl | ⟨x, rfl⟩ := (bareInstr_eq_ei_iff i).mp hi
  · cases ht
    rw [State.core_setCore]
    exact ⟨rfl, rfl⟩
  · rw [exec_ddFd x rfl] at ht
    cases ht
    rw [State.core_setCore]
    exact ⟨rfl, rfl⟩

/-- Of the marks an instruction leaves one at most (R430). -/
theorem sound_of_next {i : Instr} {s t : State} (hlone : i.isLonePrefix = false) (ht : exec i s = .next t) :
    t.core.sound = true := by
  obtain ⟨hei, hblock, hldair, hq⟩ := endOfStepMarks i s t hlone ht
  refine (Module.sound_iff _).mpr ⟨hq, fun h => ?ei, fun h => ?block⟩
  case ei =>
    have hbare : bareInstr i = .ei := of_decide_eq_true (hei.symm.trans h)
    refine ⟨iff_of_ei hbare ht, ?_⟩
    rw [hblock, hldair]
    obtain rfl | ⟨x, rfl⟩ := (bareInstr_eq_ei_iff i).mp hbare
    · exact ⟨rfl, rfl⟩
    · exact ⟨rfl, rfl⟩
  case block =>
    rw [hldair, decide_eq_false_iff_not]
    rintro (rfl | rfl) <;> exact Bool.false_ne_true (hblock.symm.trans h)

/-! ### The core step (R430) -/

/-- What a core step of any kind may do: it is confined, it leaves its module sound, and it spends 4 to 23 T-states. -/
structure CoreStepped (s t : State) : Prop where
  confined : Confined s t
  sound : t.core.sound = true
  least : s.core.t + 4 ≤ t.core.t
  most : t.core.t ≤ s.core.t + 23

theorem coreStepped_exec {i : Instr} {s s' t : State} (hfetch : s.fetch = some (i, s')) (hlone : i.isLonePrefix = false)
    (ht : exec i s' = .next t) : CoreStepped s t := by
  have htime : s'.core.t = s.core.t := (t_fetchAfter hfetch).trans (t_afterOpcode s)
  obtain ⟨hleast, hmost⟩ := instructionTimes i s' t ht
  exact ⟨(Fetched.fetch hfetch).confined.trans (exec_confined ht), sound_of_next hlone ht, htime ▸ hleast, htime ▸ hmost⟩

theorem coreStepped_instructionStep {s t : State} (ht : instructionStep s = .next t) : CoreStepped s t := by
  obtain ⟨i, s', hfetch, -, hlone⟩ := fetchesWhole_fetch s
  exact coreStepped_exec hfetch hlone ((instructionStep_of_fetch hfetch).symm.trans ht)

/-- An interrupt taken in the state `s1` that the acknowledge has left (R436, R439). -/
theorem coreStepped_takeInterrupt {s s1 : State} (hconfined : Confined s s1) (hcore : s1.core = s.core)
    (prepare : Module → Module) (target : State → Word) {n : Nat} (hn : 4 ≤ n ∧ n ≤ 23)
    (hp : ∀ c, (prepare c).t = c.t) : CoreStepped s (s1.takeInterrupt prepare target n) := by
  have ht : (s1.takeInterrupt prepare target n).core.t = s.core.t + n := by
    simp [State.takeInterrupt, hp, hcore]
  refine ⟨?confined, ?sound, by omega, by omega⟩
  case confined =>
    rw [State.takeInterrupt]
    exact ((hconfined.mapCore _).push _).mapCore _
  case sound =>
    rw [State.takeInterrupt, State.core_mapCore]
    exact Module.sound_endStep (.inr rfl)

theorem confined_busRead (s : State) : Confined s (busRead s) := (Confined.refl s).drew _

theorem coreStepped_acceptInt {s t : State} (ht : acceptInt s = .next t) : CoreStepped s t := by
  have htaken (target : State → Word) {n : Nat} (hn : 4 ≤ n ∧ n ≤ 23) :
      CoreStepped s ((busRead s).takeInterrupt (prepareInt s.cfg.ldairIffBug) target n) :=
    coreStepped_takeInterrupt (confined_busRead s) (core_busRead s) _ target hn fun _ => rfl
  unfold acceptInt at ht
  split at ht
  · rw [acceptIm0, intAckDone_eq] at ht
    split at ht
    · cases ht; exact htaken _ (by decide)
    · cases ht
  · cases ht
    exact coreStepped_takeInterrupt (.refl s) rfl _ _ (by decide) fun _ => rfl
  · rw [acceptIm2, intAckDone_eq] at ht
    cases ht; exact htaken _ (by decide)

theorem coreStepped_haltIdle {s t : State} (ht : haltIdle s = .next t) : CoreStepped s t := by
  cases ht
  refine ⟨(Confined.refl s).setCore _, ?_, ?_, ?_⟩ <;> rw [State.core_setCore]
  · exact Module.sound_endStep (.inr rfl)
  · exact Nat.le_refl _
  · exact Nat.add_le_add_left (by decide) _

theorem coreStepped_of_next {int : Bool} {s t : State} (ht : coreStep int s = .next t) : CoreStepped s t := by
  unfold coreStep at ht
  split at ht
  · cases ht
    exact coreStepped_takeInterrupt (.refl s) rfl _ _ (by decide) fun _ => rfl
  · exact coreStepped_acceptInt ht
  · exact coreStepped_haltIdle ht
  · exact coreStepped_instructionStep ht

/-! ### The board step (R451) -/

/-- A board step is a reset, or a core step with its opening and its close (R451, R476). -/
theorem step_cases {s t : State} (ht : step s = .next t) :
    (s.takeInputs.resetReq = true ∧ t = s.takeInputs.boardReset) ∨
    (s.takeInputs.resetReq = false ∧ ∃ u, CoreStepped s.takeInputs.opened u ∧ t = u.closed) := by
  cases hreset : s.takeInputs.resetReq with
  | true =>
    have hstep : step s = .next s.takeInputs.boardReset := if_pos hreset
    cases hstep.symm.trans ht
    exact .inl ⟨rfl, rfl⟩
  | false =>
    rw [step_eq_thenClosed hreset] at ht
    cases hcore : coreStep (s.takeInputs.opened.intLevel s.takeInputs.opened.cur) s.takeInputs.opened with
    | next u =>
      rw [hcore] at ht
      cases ht
      exact .inr ⟨rfl, u, coreStepped_of_next hcore, rfl⟩
    | fault | refused => rw [hcore] at ht; cases ht

theorem rom_opened (s : State) : s.opened.rom = s.rom := by
  unfold State.opened State.startFrame
  split <;> rfl

/-- Settles O14: the inputs, the opening, the core step, its close and a reset each keep both. -/
theorem romAndConfigFixed : Obligations.RomAndConfigFixed := by
  intro s t ht
  obtain ⟨-, rfl⟩ | ⟨-, u, hstepped, rfl⟩ := step_cases ht
  · exact ⟨rom_takeInputs s, cfg_takeInputs s⟩
  · rw [closed_kept]
    exact ⟨hstepped.confined.rom.trans ((rom_opened _).trans (rom_takeInputs s)),
      hstepped.confined.cfg.trans ((cfg_opened _).trans (cfg_takeInputs s))⟩

end Sys2Proof.Machine
end

section
/-!
The board's invariant: right after a reset, and kept by every step (O7, O8).
-/

namespace Sys2Proof.Machine

/-- The board's invariant, less what a step does not begin with: no reset waiting, an active module stepped last. -/
structure BoardSound (s : State) : Prop where
  memory : s.memorySound = true
  modules : ∀ m, (s.mods.get m).sound = true
  border : s.borderLine.length = s.cfg.timing.linesPerFrame
  joyLive : s.joyLive &&& 0xE0 = 0
  joyVisible : s.joyVisible &&& 0xE0 = 0

theorem sound_iff (s : State) :
    s.sound = true ↔ BoardSound s ∧ s.resetReq = false ∧ isActive s.cfg s.cur = true := by
  simp only [State.sound, Bool.and_eq_true, beq_iff_eq, Bool.not_eq_true']
  constructor
  · rintro ⟨⟨⟨⟨⟨⟨⟨⟨⟨hmem, h0⟩, h1⟩, h2⟩, h3⟩, hborder⟩, hreset⟩, hlive⟩, hvisible⟩, hcur⟩
    exact ⟨⟨hmem, fun m => by cases m <;> assumption, hborder, hlive, hvisible⟩, hreset, hcur⟩
  · rintro ⟨⟨hmem, hmods, hborder, hlive, hvisible⟩, hreset, hcur⟩
    exact ⟨⟨⟨⟨⟨⟨⟨⟨⟨hmem, hmods .m0⟩, hmods .m1⟩, hmods .m2⟩, hmods .m3⟩, hborder⟩, hreset⟩, hlive⟩, hvisible⟩, hcur⟩

/-! ### Reset and construction (R66, R96, R500) -/

theorem sound_resetModules (g : Config) (k : Nat) (m : ModuleId) : ((resetModules g k).get m).sound = true := by
  unfold resetModules
  split
  · rw [Quad.get_all]; rfl
  · cases m <;> rfl

theorem isActive_m0 (g : Config) : isActive g .m0 = true := by
  unfold isActive
  split <;> rfl

/-- Of the state before, a reset needs the memory only, which it keeps. -/
theorem sound_boardReset {s : State} (h : s.memorySound = true) : s.boardReset.sound = true :=
  (sound_iff _).mpr ⟨⟨h, sound_resetModules s.cfg s.draws, List.length_replicate, BitVec.zero_and,
    BitVec.zero_and⟩, rfl, isActive_m0 s.cfg⟩

/-- The check of R96 says what it is to say. -/
theorem heapMapFits_iff (g : Config) :
    g.heapMapFits = true ↔ ∀ (m : ModuleId) (page : Fin 8), (g.heapMap.get m)[page] < g.heapBanks := by
  refine ⟨fun h m page => heapBank_lt h m page, fun h => ?_⟩
  have hall (m : ModuleId) : ((g.heapMap.get m).toList.all fun bank => decide (bank < g.heapBanks)) = true := by
    rw [List.all_eq_true]
    intro bank hbank
    obtain ⟨k, hk, rfl⟩ := List.getElem_of_mem hbank
    exact decide_eq_true (h m ⟨k, by simpa using hk⟩)
  simp only [Config.heapMapFits, hall, Bool.and_self]

theorem construct_of_fits {g : Config} (h : g.heapMapFits = true) :
    construct g = .ok ({ State.reset with cfg := g }).boardReset := if_pos h

theorem construct_of_not_fits {g : Config} (h : ¬ g.heapMapFits = true) : construct g = .error .heapMap := if_neg h

theorem sound_constructed {g : Config} (h : g.heapMapFits = true) :
    ({ State.reset with cfg := g }).boardReset.sound = true := by
  refine sound_boardReset ?_
  simp only [State.memorySound, Bool.and_eq_true]
  exact ⟨⟨⟨⟨h, rfl⟩, rfl⟩, rfl⟩, rfl⟩

theorem heapMapFits_default : Config.default.heapMapFits = true := by decide

theorem constructed_default : ({ State.reset with cfg := Config.default }).boardReset = State.reset := rfl

/-- Settles O8: a board is constructed by a reset, where the heap map passes its check. -/
theorem resetIsSound : Obligations.ResetIsSound := by
  have hreset := constructed_default
  refine ⟨hreset ▸ sound_constructed heapMapFits_default, hreset ▸ construct_of_fits heapMapFits_default,
    fun g ⟨m, page, hbad⟩ => construct_of_not_fits fun h => ?bad,
    fun g hfits => ⟨_, construct_of_fits ((heapMapFits_iff g).mpr hfits),
      sound_constructed ((heapMapFits_iff g).mpr hfits), rfl⟩⟩
  case bad => exact Nat.not_lt.mpr hbad ((heapMapFits_iff g).mp h m page)

/-! ### The inputs and the opening of a step (R491, R451) -/

/-- What every host event keeps, and what does not look at the schedule, the inputs of a board step keep (R491). -/
theorem takeInputs_induction {P : State → Prop} (hdeliver : ∀ s e, P s → P (s.deliver e))
    (hlater : ∀ s later, P s → P { s with hostInputs := later }) {s : State} (h : P s) : P s.takeInputs := by
  have hfold (batch : List HostEvent) : ∀ s, P s → P (batch.foldl State.deliver s) := by
    induction batch with
    | nil => exact fun _ => id
    | cons e batch ih => exact fun s h => ih _ (hdeliver s e h)
  unfold State.takeInputs
  split
  · exact h
  · exact hfold _ _ (hlater s _ h)

/-- The joystick's five lines leave bits 7..5 alone (R490). -/
theorem setLine_and_e0 {joy : Byte} (h : joy &&& 0xE0 = 0) (line : Fin 5) (on : Bool) : setLine joy line on &&& 0xE0 = 0 := by
  have hline : (1#8 <<< line.val) &&& 0xE0 = 0 := by decide +revert
  cases on with
  | true =>
    change (joy ||| 1#8 <<< line.val) &&& 0xE0 = 0
    rw [BitVec.and_or_distrib_right, h, hline]; rfl
  | false =>
    change joy &&& ~~~(1#8 <<< line.val) &&& 0xE0 = 0
    rw [BitVec.and_assoc, BitVec.and_comm (~~~_), ← BitVec.and_assoc, h]
    exact BitVec.zero_and

theorem BoardSound.deliver {s : State} (h : BoardSound s) (e : HostEvent) : BoardSound (s.deliver e) := by
  obtain ⟨hmem, hmods, hborder, hlive, hvisible⟩ := h
  cases e with
  | joyDown line => exact ⟨hmem, hmods, hborder, setLine_and_e0 hlive line true, hvisible⟩
  | joyUp line => exact ⟨hmem, hmods, hborder, setLine_and_e0 hlive line false, hvisible⟩
  | clearReti m =>
    refine ⟨hmem, fun n => ?_, hborder, hlive, hvisible⟩
    rw [mods_clearReti]
    exact hmods n
  | _ => exact ⟨hmem, hmods, hborder, hlive, hvisible⟩

theorem BoardSound.takeInputs {s : State} (h : BoardSound s) : BoardSound s.takeInputs :=
  takeInputs_induction (fun _ e h => h.deliver e) (fun _ _ h => ⟨h.memory, h.modules, h.border, h.joyLive, h.joyVisible⟩) h

theorem sound_detectNmi {s : State} (h : BoardSound s) (m : ModuleId) : (s.detectNmi.mods.get m).sound = true := by
  cases hactive : isActive s.cfg m with
  | true => rw [detectNmi_active hactive]; exact h.modules m
  | false => rw [detectNmi_inactive hactive]; exact h.modules m

theorem BoardSound.opened {s : State} (h : BoardSound s) : BoardSound s.opened := by
  cases hpending : s.frameStartPending with
  | true =>
    rw [opened_of_pending hpending]
    exact ⟨h.memory, sound_detectNmi h, List.length_replicate, h.joyLive, h.joyLive⟩
  | false =>
    rw [opened_of_started hpending]
    exact ⟨h.memory, sound_detectNmi h, h.border, h.joyLive, h.joyVisible⟩

theorem resetReq_opened (s : State) : s.opened.resetReq = s.resetReq := by
  unfold State.opened State.startFrame
  split <;> rfl

/-- The module that steps is active (R450, R452). -/
theorem isActive_cur_opened (s : State) : isActive s.opened.cfg s.opened.cur = true := by
  obtain ⟨hactive, -⟩ := selectsFurthestBehind s
  rwa [cfg_opened, cur_opened]

/-! ### The core step and its close (R430, R454) -/

theorem BoardSound.coreStepped {s t : State} (h : BoardSound s) (hstepped : CoreStepped s t) : BoardSound t := by
  obtain ⟨hconfined, hsound, -, -⟩ := hstepped
  refine ⟨hconfined.memory h.memory, fun m => ?modules, ?border, ?joyLive, ?joyVisible⟩
  case modules =>
    by_cases hm : m = s.cur
    · rw [hm, ← hconfined.cur]; exact hsound
    · rw [hconfined.others m hm]; exact h.modules m
  case border => rw [hconfined.border, hconfined.cfg]; exact h.border
  case joyLive => rw [hconfined.frame]; exact h.joyLive
  case joyVisible => rw [hconfined.frame]; exact h.joyVisible

theorem BoardSound.closed {s : State} (h : BoardSound s) : BoardSound s.closed := by
  rw [closed_kept]
  refine ⟨h.memory, fun m => ?_, h.border, h.joyLive, h.joyVisible⟩
  obtain ⟨hkept, -⟩ := mods_closed s m
  change (s.closed.mods.get m).sound = true
  rw [hkept]
  exact h.modules m

/-- Settles O7: the invariant less its two last parts is kept by everything in a step, and those two hold at its end. -/
theorem soundKept : Obligations.SoundKept := by
  intro s t hs ht
  obtain ⟨hboard, -, -⟩ := (sound_iff s).mp hs
  obtain ⟨-, rfl⟩ | ⟨hreset, u, hstepped, rfl⟩ := step_cases ht
  · exact sound_boardReset hboard.takeInputs.memory
  · have hu := hboard.takeInputs.opened.coreStepped hstepped
    refine (sound_iff _).mpr ⟨hu.closed, ?reset, ?cur⟩ <;> rw [closed_kept]
    case reset =>
      change u.resetReq = false
      rw [hstepped.confined.frame]
      exact (resetReq_opened _).trans hreset
    case cur =>
      change isActive u.cfg u.cur = true
      rw [hstepped.confined.cfg, hstepped.confined.cur]
      exact isActive_cur_opened _

end Sys2Proof.Machine
end

section
/-!
The counters of the active modules, within a frame and a step and within a step of each other (O9).
-/

namespace Sys2Proof.Machine

/-- The counters as they stand between the core step and its close: the frame may have ended for all active modules. -/
structure CountersInStep (s : State) : Prop where
  inFrame : ∀ m, isActive s.cfg m = true → (s.mods.get m).t < tstatesPerFrame s.cfg.timing + 23
  close : ∀ m n, isActive s.cfg m = true → isActive s.cfg n = true → (s.mods.get m).t ≤ (s.mods.get n).t + 23

/-- The counters of a board are sound or not by its configuration and the counters alone. -/
theorem countersSound_congr {s t : State} (hcfg : t.cfg = s.cfg) (ht : ∀ m, (t.mods.get m).t = (s.mods.get m).t)
    (h : s.countersSound) : t.countersSound := by
  simp only [State.countersSound, hcfg, ht]
  exact h

theorem t_takeInputs (s : State) (m : ModuleId) : (s.takeInputs.mods.get m).t = (s.mods.get m).t := by
  refine takeInputs_kept (fun s => (s.mods.get m).t) (fun s e => ?_) (fun _ _ => rfl) s
  cases e with
  | clearReti n => rw [mods_clearReti]
  | _ => rfl

theorem t_opened (s : State) (m : ModuleId) : (s.opened.mods.get m).t = (s.mods.get m).t := by
  cases h : s.frameStartPending with
  | true => rw [opened_of_pending h]; exact t_detectNmi s m
  | false => rw [opened_of_started h]; exact t_detectNmi s m

theorem t_resetModules (g : Config) (k : Nat) (m : ModuleId) : ((resetModules g k).get m).t = 0 := by
  unfold resetModules
  split
  · rw [Quad.get_all]; rfl
  · cases m <;> rfl

theorem countersSound_boardReset {s : State} (h : 0 < tstatesPerFrame s.cfg.timing) : s.boardReset.countersSound := by
  have ht (m : ModuleId) : (s.boardReset.mods.get m).t = 0 := t_resetModules s.cfg s.draws m
  simp only [State.countersSound, ht]
  exact ⟨⟨.m0, isActive_m0 _, h⟩, fun _ _ => Nat.lt_add_right 23 h, fun _ _ _ _ => Nat.zero_le _⟩

/-- The module that steps is the furthest behind, so that one step takes it a step past no other (R452). -/
theorem countersInStep_of_coreStepped {s t : State} (h : s.countersSound)
    (hleast : ∀ m, isActive s.cfg m = true → (s.mods.get s.cur).t ≤ (s.mods.get m).t) (hstepped : CoreStepped s t) :
    CountersInStep t := by
  obtain ⟨⟨best, hbest, hbehind⟩, hframe, hclose⟩ := h
  have hcur := hleast best hbest
  have hspent : (s.mods.get s.cur).t + 4 ≤ (t.mods.get s.cur).t ∧ (t.mods.get s.cur).t ≤ (s.mods.get s.cur).t + 23 := by
    have hbounds := And.intro hstepped.least hstepped.most
    rw [State.core, State.core, hstepped.confined.cur] at hbounds
    exact hbounds
  have hother (m : ModuleId) (hm : m ≠ s.cur) : (t.mods.get m).t = (s.mods.get m).t := by
    rw [hstepped.confined.others m hm]
  constructor <;> rw [hstepped.confined.cfg]
  · intro m hm
    by_cases h : m = s.cur
    · subst h; omega
    · rw [hother m h]; exact hframe m hm
  · intro m n hm hn
    have hmn := hclose m n hm hn
    have hn' := hleast n hn
    by_cases h : m = s.cur
    · subst h
      by_cases h' : n = s.cur
      · subst h'; omega
      · rw [hother n h']; omega
    · rw [hother m h]
      by_cases h' : n = s.cur
      · subst h'; omega
      · rw [hother n h']; exact hmn

/-- A frame that has ended leaves less of each counter than one step (R454). -/
theorem wrapCounter_lt {g : Config} {t : Nat} (ht : t < tstatesPerFrame g.timing + 23) : wrapCounter g t < 23 := by
  unfold wrapCounter
  split <;> omega

theorem countersSound_closed {s : State} (hlong : 23 ≤ tstatesPerFrame s.cfg.timing) (h : CountersInStep s) :
    s.closed.countersSound := by
  obtain ⟨hframe, hclose⟩ := h
  by_cases hdone : FrameEnded s
  · have hcfg : s.closed.cfg = s.cfg := by rw [closed_of_done hdone]; rfl
    have hless (m : ModuleId) (hm : isActive s.cfg m = true) : (s.closed.mods.get m).t < 23 := by
      have hwrap : s.closed.mods.get m = { s.mods.get m with t := wrapCounter s.cfg (s.mods.get m).t } := by
        rw [closed_of_done hdone]; exact completeFrame_active hm
      rw [hwrap]
      exact wrapCounter_lt (hframe m hm)
    unfold State.countersSound
    rw [hcfg]
    refine ⟨⟨.m0, isActive_m0 _, Nat.lt_of_lt_of_le (hless _ (isActive_m0 _)) hlong⟩, fun m hm => ?_, fun m n hm _ => ?_⟩
    · exact Nat.lt_of_lt_of_le (hless m hm) (Nat.le_add_left _ _)
    · exact Nat.le_trans (Nat.le_of_lt (hless m hm)) (Nat.le_add_left _ _)
  · rw [closed_of_not_done hdone]
    have hbehind : ∃ m, isActive s.cfg m = true ∧ (s.mods.get m).t < tstatesPerFrame s.cfg.timing := by
      simpa only [FrameEnded, not_forall, Nat.not_le, exists_prop] using hdone
    exact ⟨hbehind, hframe, hclose⟩

/-- Settles O9: a step is made by the module furthest behind, which has not ended its frame. -/
theorem countersKept : Obligations.CountersKept := by
  intro s t hlong hs ht
  have hs' : s.takeInputs.countersSound := countersSound_congr (cfg_takeInputs s) (t_takeInputs s) hs
  rw [← cfg_takeInputs s] at hlong
  obtain ⟨-, rfl⟩ | ⟨-, u, hstepped, rfl⟩ := step_cases ht
  · exact countersSound_boardReset (Nat.lt_of_lt_of_le (by decide) hlong)
  · have hopened := countersSound_congr (cfg_opened s.takeInputs) (t_opened s.takeInputs) hs'
    obtain ⟨-, -, -, hselect⟩ := selectsFurthestBehind s.takeInputs
    refine countersSound_closed ?long (countersInStep_of_coreStepped hopened (fun m hm => ?least) hstepped)
    case long => rwa [hstepped.confined.cfg, cfg_opened]
    case least =>
      rw [cfg_opened] at hm
      rw [cur_opened, t_opened, t_opened]
      exact (hselect m hm).1

end Sys2Proof.Machine
end
